-- ==== Sys2Proof/Word.lean ====
section
/-! DEFINITION. The word types of the MX-60 (spec/00_scope.md, R6 and R7) and the sparse table in which the
state holds its numbered instances. -/

namespace Sys2Proof

/-- One byte. -/
abbrev Byte := BitVec 8

/-- One register: 32 bits (R6). -/
abbrev Word := BitVec 32

/-- A 64-bit quantity: a LO and HI pair (R7), an address word (R56), a tile command word (R57). -/
abbrev DWord := BitVec 64

/-- A string of bytes, lowest address first. -/
abbrev Bytes := List Byte

/-- A sparse table by number: an unlisted key holds a default that the reader names. -/
abbrev Tbl (α : Type) := List (Nat × α)

end Sys2Proof
end

