-- ==== Sys2Proof/Syntax.lean ====
section
/-! DEFINITION. The commands of the MX-60: one constructor of `Instr` for each row of spec/opcode_table.json, and the
operand types they carry. A command's operands are what the outside supplies at that step: a function and an offset, a
ticket of a dispatched descriptor, host bytes that a read returned, a packet, a hardware error that a unit met
(notes/assumptions/3.md). -/

namespace Sys2Proof

/-- How a detected hardware error ended (R26, R199): corrected inline (not an error), cleared by its one retry, or not. -/
inductive ErrClass where
  | corrected
  | transient
  | lasting
deriving DecidableEq, Repr

/-- An error that has arisen in a stored line of tier A (0) or B (1): a physical address in the line, and how the read
that meets it finds it (R199, R200). It lies in the line until a read meets it or a write replaces it. -/
structure LineErr where
  tier : Nat
  addr : Nat
  cls  : ErrClass
deriving DecidableEq, Repr

/-- A pass check that failed on a logical array of the Panel (R26, R67-R69), or a Hem buffer that cannot be corrected
while it holds an open tile (R69); `loom`: the Matrix Loom failed instead (R140). -/
structure PassErr where
  array : Nat
  cls   : ErrClass
  hem   : Bool
  loom  : Bool
deriving DecidableEq, Repr

/-- What a read of one codeword of tier C met (R216, R226, R229). -/
inductive FlashErr where
  | corrected   -- decoded with corrected bits
  | refresh     -- corrected close to the limit, or a soft read was needed (R226)
  | transient   -- the re-read decoded
  | lasting     -- the re-read failed too
  | dieGone     -- every access of the die fails LASTING (R229)
deriving DecidableEq, Repr

/-- How a program or an erase ended (R227). -/
inductive ProgramEnd where
  | ok
  | transient   -- failed once, the retry passed
  | grown       -- the retry failed: grown defect
  | dieGone     -- every access of the die fails LASTING (R229)
deriving DecidableEq, Repr

/-- What the record check unit or the Ring Sum Engine met while it decided a record (R112, R161, R164). -/
inductive IngErr where
  | none
  | pointerTransient
  | pointerLasting
  | engineTransient
  | engineLasting
deriving DecidableEq, Repr

/-- The 48-byte PXT header (R278). -/
structure PxtHdr where
  ver      : BitVec 4
  typ      : BitVec 4
  flags    : BitVec 8
  job      : BitVec 16
  dstPart  : BitVec 8
  srcPart  : BitVec 8
  gen      : BitVec 8
  code     : BitVec 8
  msgId    : BitVec 16
  pktIndex : BitVec 16
  msgLen   : BitVec 32
  txSeq    : BitVec 64
  txTime   : BitVec 64
  window   : BitVec 32
  queue    : BitVec 32
  aux      : BitVec 64
deriving DecidableEq, Repr

/-- A PXT packet as it arrives at a port (R277): addresses, UDP destination port, header, encrypted payload and tag. -/
structure Packet where
  port    : Nat
  src     : BitVec 128
  dst     : BitVec 128
  udpPort : BitVec 16
  hdr     : PxtHdr
  body    : Bytes
  tag     : Bytes
deriving DecidableEq, Repr

/-- A PTP port as the module sees it (R305): the module port at which its messages arrive, and its port identity. -/
structure PtpPort where
  port   : Nat
  sender : BitVec 80
deriving DecidableEq, Repr

/-- Where a PTP message comes from: the port, its domain, and whether it came over UDP/IPv6, else over IEEE 802.3 (R305). -/
structure PtpFrom where
  src    : PtpPort
  domain : Nat
  udp    : Bool
deriving DecidableEq, Repr

/-- The dataset of an Announce, which the best master clock algorithm compares (R305). -/
structure PtpData where
  prio1    : BitVec 8
  cls      : BitVec 8
  accuracy : BitVec 8
  variance : BitVec 16
  prio2    : BitVec 8
  master   : BitVec 64
  steps    : BitVec 16
deriving DecidableEq, Repr

/-- A certificate chain's root key digest with the mutual authentication of an SPDM FINISH (R336); `none` for a session
without mutual authentication. -/
abbrev PeerRoot := Option Bytes

/-- Who carries an SPDM session or a request: a function's DOE mailbox or the management link (R335, R408). -/
inductive Carrier where
  | doe (fn : Nat)
  | mctp
deriving DecidableEq, Repr

/-- Bytes of an operator envelope and the request it covers (R391). -/
structure Envelope where
  seq       : BitVec 64
  signature : Bytes
  request   : Bytes
deriving DecidableEq, Repr

/-- A firmware core (R341, R353, R369): 0 to 63 the Panel control cores, 64 the scheduler core, 65 the power core, 66 the
Thimble, 67 the flash controller microcode, 68 to 83 the microcode of GRU 0 to 15, 84 the edge-die microcode. -/
abbrev CoreNo := Nat

inductive Instr where
  -- register accesses (R6-R10, R341, R404, R405)
  | registerWrite (fn off : Nat) (v : Word)
  | badAccessWidth (fn off width : Nat) (write : Bool)
  | loReadLatch (fn off : Nat)
  | debugViewWrite (off : Nat) (v : Word)
  | counterOvfClear (fn idx : Nat)
  | cntCtlClearAll (fn : Nat)
  -- rings, doorbells, dispatch (R252-R261)
  | ringCreate (fn : Nat)
  | ringDelete (fn : Nat)
  | ringDeleteDone (fn : Nat)
  | hifSqTailWrite (fn : Nat) (v : Word)
  | hifCqHeadWrite (fn : Nat) (v : Word)
  | hifEqHeadWrite (fn : Nat) (v : Word)
  | descriptorFetchDone (fn : Nat) (descs : List Bytes)
  | descriptorDispatch (fn : Nat)
  | coalesceTimerExpiry (fn : Nat)
  | eventVectorHoldoffEnd (fn : Nat)
  -- driver loss and resets (R265, R269-R271, R373)
  | hifHeartbeat (fn : Nat) (v : Word)
  | hifHbCfgWrite (fn : Nat) (v : Word)
  | heartbeatExpiry (fn : Nat)
  | linkDown
  | busMasterEnableClear (fn : Nat)
  | d3hotEntry (fn : Nat)
  | vfFlr (p : Nat)
  | pfFlr
  | hotReset
  | perstNAssert
  | perstNRelease
  | tdispError (p : Nat)
  | nonIdeRequest (p : Nat)
  | hifHeldStatClear (fn : Nat)
  -- host descriptors (R262-R264, R333, R334, R409)
  | nop (op : Nat)
  | dmaIn (op : Nat) (data : Bytes)
  | dmaOut (op : Nat) (errs : List LineErr)
  | dmaMove (op : Nat) (errs : List LineErr)
  | hostSeamAdd (op : Nat) (data : Bytes)
  | weightLoad (op : Nat) (data : Bytes) (errs : List LineErr)
  | weightRelease (op : Nat)
  -- tile programs (R54-R78)
  | tileRun (op : Nat) (errs : List LineErr)
  | loadAct (panel : Nat) (errs : List LineErr)
  | streamW (panel : Nat) (errs : List LineErr)
  | pass (panel : Nat) (err : Option PassErr)
  | passDone (panel : Nat)
  | promote (panel : Nat)
  | epilogue (panel : Nat) (errs : List LineErr)
  | store (panel : Nat)
  | reduceSeam (panel : Nat)
  | sync (panel : Nat)
  | syncBarrierRelease (op : Nat)
  | spillPageFetchDone (panel : Nat) (errs : List LineErr)
  -- Seam regions (R86-R91)
  | seamRegion (op : Nat)
  | seamRegionClearDone (p region : Nat)
  | seamRegionRelease (op : Nat)
  | seamFinalise (op : Nat)
  | seamCloseDrainDone (p region : Nat) (errs : List LineErr)
  | seamAddendApply (xfer : Nat) (err : Option ErrClass) (errs : List LineErr)
  -- rounds and shares (R95-R136)
  | roundOpen (op : Nat) (policy : Bytes)
  | roundZeroingDone (p slot : Nat)
  | roundAbort (op : Nat)
  | roundStatus (op : Nat)
  | roundFree (op : Nat)
  | roundFreeScrubDone (p slot : Nat)
  | roundRoster (op : Nat) (roster : Bytes)
  | shareSum (op : Nat) (header : Bytes)
  | admitClose (p slot : Nat)
  | complete (p slot : Nat)
  | seal (p slot : Nat)
  | sealDrainEnd (p slot : Nat)
  | release (p slot : Nat)
  | shareCollectionTimeout (p slot : Nat)
  | shareCombinerServe (envelopes : List (Nat × Bytes))
  | roundShardsConfirmed (p slot : Nat)
  -- ingest (R145-R164)
  | ingestRecordCheck (p : Nat) (err : IngErr)
  | ingCtlFlush (p : Nat)
  | ingCtlUnlatch (p : Nat)
  -- Gate Refresh Units (R165-R188)
  | gruKeyset (op : Nat)
  | gruKeysetRelease (op : Nat)
  | gruProgram (op : Nat)
  | gruProgramRelease (op : Nat)
  | gruRun (op : Nat)
  | gruBatchDone (gru : Nat) (err : Option ErrClass)
  -- tiers A and B (R199-R213)
  | memPatrolTick (tier : Nat) (line : Nat) (err : Option ErrClass)
  | memErrInfoClear (fn : Nat)
  -- tier C and the hold-up gate (R214-R246, R384, R385)
  | flashRead (op : Nat) (errs : List (Nat × FlashErr))
  | flashWrite (op : Nat) (data : Bytes) (errs : List LineErr)
  | flashTrim (op : Nat)
  | checkpoint (op : Nat) (list : Bytes) (errs : List LineErr)
  | ckptRestore (op : Nat) (errs : List (Nat × FlashErr))
  | gateExtentAdmit
  | flashProgramDone (extent : Nat) (res : ProgramEnd)
  | flashPatrolTick (die block page : Nat) (errs : List (Nat × FlashErr))
  | wearMove (die block : Nat)
  | holdupEnergyMeasure (millivolts : Nat)
  | bankCapacitanceTest
  | bankTestDone (millifarads : Nat)
  -- Plynuc Transport (R273-R302)
  | fabSend (op : Nat)
  | fabWrite (op : Nat)
  | fabRead (op : Nat)
  | fabFlush (op : Nat)
  | fabCancel (op : Nat)
  | fabTriggerArm (op : Nat)
  | fabCounterSet (op : Nat)
  | fabCounterAdd (op : Nat)
  | fabWindowCreate (op : Nat)
  | fabWindowRevoke (op : Nat)
  | fabRqCreate (op : Nat)
  | fabRqReturn (op : Nat)
  | fabRqDelete (op : Nat)
  | fabPeerSet (op : Nat)
  | fabPeerClear (op : Nat)
  | fabJobBind (op : Nat)
  | fabJobUnbind (op : Nat)
  | pxtTransmit (msg port : Nat)
  | pxtSendReceive (pkt : Packet) (err : Option ErrClass)
  | pxtWriteReceive (pkt : Packet)
  | pxtReadReqReceive (pkt : Packet) (errs : List LineErr)
  | pxtReadRespReceive (pkt : Packet)
  | pxtAckReceive (pkt : Packet)
  | pxtNackReceive (pkt : Packet)
  | pxtFlushReceive (pkt : Packet)
  | pxtFlushRespSend (flush : Nat)
  | pxtFlushRespReceive (pkt : Packet)
  | pxtErrorReceive (pkt : Packet)
  | placementFailure (entry : Nat) (first len : Nat)
  | pxtAckTimer (entry : Nat)
  | pxtRetransmitTimeout (msg pkt : Nat)
  | pxtMessageTimeout (msg : Nat)
  | pxtRnrResend (msg : Nat)
  | receiveEntryExpiry (entry : Nat)
  | windowIdleTimeout (entry : Nat)
  | portsDownTimeout (msg : Nat)
  | fabPortDown (port : Nat)
  | fabPortUp (port : Nat)
  -- the Meridian and the Graticule (R304-R321)
  | markSet (op : Nat)
  | markCancel (op : Nat)
  | markList (op : Nat)
  | timeSet (op : Nat)
  | markArmingStart (entry : Nat)
  | markParticipantArmed (entry : Nat) (unit : BitVec 16) (err : Option ErrClass)
  | markArmDeadline (entry : Nat)
  | dispatchMark (entry : Nat)
  | eventMark (entry : Nat)
  | modeMark (entry : Nat)
  | partitionMark (entry : Nat)
  | firmwareMark (entry : Nat)
  | fallbackMark (entry : Nat)
  | markRollbackWindowEnd (entry : Nat) (fault : Option (BitVec 16)) (again : Option (BitVec 16))
  | partitionBlankDone (p : Nat)
  | partConfig (op : Nat) (layout : Bytes)
  | ptpSyncReceive (src : PtpFrom) (origin : Nat) (twoStep : Bool)
  | ptpDelayReqTimer
  | ptpAnnounceTimeout
  | ppsInEdge
  | ppsMissingTimeout
  | ppsOutSecond
  | mrdCfgWrite (v : Word)
  -- trust, keys and attestation (R323-R352)
  | tenantSwitch (op : Nat)
  | tenantSwitchScrubDone (bad : List (Nat × Nat))
  | lifecycleRetire (op : Nat)
  | mgmtCred (op : Nat) (key : Bytes)
  | meshBreach
  | glitchDetect
  | keySlotIntegrityFault (slot : Nat)
  | keyMaskRefresh
  | rngBlockTest (source : Nat) (bits : Bytes)
  | rngSourceRestartDone (source : Nat)
  | rngStartupTestDone (fails : List (Nat × Nat × Nat))
  | rngRawRead
  | rngRawWrite (v : Word)
  | rngCtlWrite (v : Word)
  | spdmKeyExchange (carrier : Carrier) (sid : BitVec 32) (exch : Bytes)
  | spdmFinish (sid : BitVec 32) (root : PeerRoot)
  | spdmGetCertificate (carrier : Carrier)
  | spdmGetMeasurements (carrier : Carrier)
  | spdmChallenge (carrier : Carrier) (nonce : Bytes)
  | spdmKeyUpdate (sid : BitVec 32)
  | spdmHeartbeat (sid : BitVec 32)
  | spdmEndSession (sid : BitVec 32)
  | spdmHeartbeatExpiry (sid : BitVec 32)
  | doeAbort (fn : Nat)
  | mgmtLinkReset
  | ideKmKeyProg (sid : BitVec 32) (stream substream : Nat) (rx : Bool) (key : Bytes)
  | keyDeliver (sid : BitVec 32) (req : Bytes)
  | keyUnwrap (sid : BitVec 32) (req : Bytes)
  | keyWrap (sid : BitVec 32) (req : Bytes)
  | keyZeroise (sid : BitVec 32) (req : Bytes)
  | cartoucheGet (sid : BitVec 32) (req : Bytes)
  | cartoucheLog (sid : BitVec 32) (req : Bytes)
  -- firmware (R353-R371)
  | fwStage (op : Nat) (piece : Bytes)
  | fwActivate (op : Nat)
  | fwConfirmWrite (v : Word)
  | slotCopyDone
  | fwDumpRead (op : Nat)
  | fwDumpCapture (op : Nat)
  | coreFault (core : CoreNo) (cls : ErrClass)
  | watchdogExpiry (core : CoreNo) (cls : ErrClass)
  | crashDumpCaptureDone
  | loadWaitTimeout
  | fwMboxGo
  | mgmtImageTransferDone (bundle : Bytes)
  -- management (R389-R392)
  | mgmtHealthRead (off : Nat)
  | mgmtEnvelopedRequest (env : Envelope)
  | mgmtResetAction (env : Envelope)
  -- power, phases, pins (R375-R388)
  | auxGood
  | auxSourceLoss (from12V : Bool)
  | strapLatch (pins : BitVec 10)
  | mainRailsEnable
  | mainGood
  | runEntry (bad dumpBad : List Nat)
  | pwrFailNAssert
  | undervoltage54v
  | dumpEnd (left : List Nat) (count : Nat)
  | v54Return
  | modResetNAssert (lowNs : Nat)
  | modResetNRelease
  | resetHeldTimeout
  | resetStuckTimeout
  | thermalAlert (junction inlet : Nat)
  | throttleStepDown
  | throttleStepUp (junction inlet : Nat)
  | thermalTrip (junction inlet : Nat)
  | auxPowerLoss
  | fusingToDeployed
  | ptpAnnounceReceive (src : PtpFrom) (data : PtpData)
  | ptpDelayRespReceive (src : PtpFrom) (received : Nat)
  | ptpFollowUpReceive (src : PtpFrom) (origin : Nat)
  | tdispLockInterface (p : Nat)
  | tdispStartInterface (p : Nat)
  | tdispStopInterface (p : Nat)
  | chargerFault
  | selvageDwellEnd
  | tileCommandRetire (panel word : Nat)
  | dmaTransferDone (op : Nat)
  | mailboxBundleReadDone (bundle : Bytes)
  | flashEraseDone (die block : Nat) (res : ProgramEnd)
deriving DecidableEq, Repr

end Sys2Proof
end

