-- ==== Sys2Proof/Decode.lean ====
section
/-! DEFINITION. The command that a word of spec/opcode_table.json spells. No row of that table gives bits (every "fields"
is empty), so no word spells a command; the byte layouts that the part itself decodes (descriptors R257, tile commands
R57, packets R278, requests R338) are read where they act. -/

namespace Sys2Proof

/-- The command that the `nbits` bits of `w` spell by the table: none, for every word. -/
def decodeTableWord (_nbits _w : Nat) : Option Instr := none

end Sys2Proof
end

