-- ==== Sys2Proof/Config.lean ====
section
/-! DEFINITION. What one module fixes and the spec does not give, and the values that the spec leaves open. Every
constant here is opaque: no proof can see a value, so a claim holds whatever it is. -/

namespace Sys2Proof.Config

/-- A fresh byte that nothing constrains: the `j`-th byte of the `c`-th open value (notes/assumptions/6.md). The
random bits of the jitter sources (R346), the keys made from them, nonces of signatures (R339), the contents of a
released key set area (R170). -/
opaque freeByte : Nat → Nat → Byte

/-- A fresh truth value: a pulse whose outcome R382 does not fix, a choice the spec leaves open. -/
opaque freeBool : Nat → Bool

/-- A draw of the noise sampler for SIGMA not 0 (R111): an integer that the spec fixes only in distribution. -/
opaque gaussian : Nat → Nat → Int

/-- Which of the FP32 patterns within 2 ULP of the exact value EPILOGUE functions 0x3 to 0x7 give (R61): the same on every
Panel, so a function of FUNC and the operand alone. -/
opaque epilogueStep : Nat → Word → Nat

/-- EPILOGUE functions 0x3 to 0x5 at −∞, where the product that defines them has no value (R61). -/
opaque epilogueNegInf : Nat → Word

/-- The 14-bit hash of R277 over MSG_ID and PKT_INDEX >> 4. -/
opaque udpHash : Nat → Nat → BitVec 14

/-- The hash that selects one of 4,096 sets of congestion contexts (R296), over address and partition. -/
opaque ccSet : Nat → Nat → BitVec 12

/-- The unique device secret in fuses (R324). -/
opaque uds : BitVec 384

/-- The device-set key in fuses, 256 bits (R331). -/
opaque deviceSetKey : BitVec 256

/-- SHA-384 of the Thimble ROM, SPDM measurement index 1 (R335). -/
opaque romDigest : BitVec 384

/-- The Llynsis firmware key: a 97-byte uncompressed SEC1 point whose digest is fused (R324, R354). -/
opaque firmwareKey : BitVec 776

/-- The DER certificates of slot 0 from the Llynsis root to the DeviceID certificate (R325). -/
opaque rootChain : Nat → Byte

/-- Length of `rootChain` in bytes. -/
opaque rootChainLength : Nat

/-- The 56 bytes of HKDF-SHA384 output that R325 takes from a seed: its salt and info are not stated. -/
opaque hkdf56 : List Byte → List Byte

/-- The system storage key (3) and the media wrap key (4), derived from the UDS by a function that is not stated (R326). -/
opaque udsKdf : Nat → List Byte

/-- The manifest of the stitched bundle that the module holds in slot A as shipped (R357): 1,056 bytes of R354. -/
opaque shippedManifest : List Byte

/-- The DER to-be-signed bytes of a certificate of R325 for a public key, a level (1 alias, 2 device identity) and its
TCB information: X.509 leaves names and serial numbers to the issuer. -/
opaque certificate : Nat → List Byte → List Byte → List Byte

/-- The DER certificate made of its to-be-signed bytes and a signature, r then s (R325). -/
opaque derCert : List Byte → List Byte → List Byte

/-- The parity group that the flash controller chooses for a page (R220 leaves the place to it), by the number of the
write. -/
opaque flashGroup : Nat → Nat

/-- The XTS tweak of a 4 KiB data unit of a checkpoint log, by partition and unit: R218 gives tweaks to logical blocks only. -/
opaque logTweak : Nat → Nat → Nat

/-- Byte `i` of the bundle that the module holds in slot A as shipped (R357). -/
opaque shippedByte : Nat → Byte

/-- The module's PCI vendor ID (R338). -/
opaque vendorId : BitVec 16

/-- The module's mean power in watts over a millisecond of Meridian time, by its number: a measurement (R342, R393). -/
opaque watts : Nat → Nat

/-- What a core's registers and retired addresses hold in a dump (R369): bytes of a capture, by capture number and offset. -/
opaque dumpByte : Nat → Nat → Byte

/-- The two 256-bit keys of AES-256-XTS that a memory engine makes of one 256-bit slot key: IEEE 1619 takes two keys, a
slot holds one (R194, R218, R326), and the spec does not say how they are made. -/
opaque xtsKeys : List Byte → List Byte × List Byte

/-- The KDF engine's tier C data key of the tenant's tier C key and the media key (R218): the spec names the two inputs
and not the function. -/
opaque tierCKdf : List Byte → List Byte → List Byte

/-- How far a running blank or scrub has come at a Meridian time (R211), taken modulo 101. -/
opaque scrubPercent : Nat → Nat

end Sys2Proof.Config
end

