-- ==== Sys2Proof/Machine/Bits.lean ====
section
/-! DEFINITION. Sparse tables, byte strings in both byte orders, bit fields, serial-number arithmetic and CRC-32C:
the plain arithmetic that the other files share. -/

namespace Sys2Proof.Machine

/-! ## Sparse tables -/

/-- The entry of `t` at `k`, or `d` where none is listed. -/
def tget {α : Type} (d : α) : Tbl α → Nat → α
  | [], _ => d
  | (k', v) :: t, k => if k = k' then v else tget d t k

/-- `t` with `v` at `k`; keys stay in rising order. -/
def tset {α : Type} (k : Nat) (v : α) : Tbl α → Tbl α
  | [] => [(k, v)]
  | (k', v') :: t => if k = k' then (k, v) :: t else if k < k' then (k, v) :: (k', v') :: t else (k', v') :: tset k v t

/-- The listed entry of `t` at `k`. -/
def tfind {α : Type} (t : Tbl α) (k : Nat) : Option α := (t.find? (fun e => e.1 == k)).map (·.2)

/-- `t` without an entry at `k`. -/
def tdel {α : Type} (k : Nat) (t : Tbl α) : Tbl α := t.filter (fun e => e.1 != k)

/-- `t` without the entries whose keys are in `[lo, hi)`. -/
def tdelRange {α : Type} (lo hi : Nat) (t : Tbl α) : Tbl α := t.filter (fun e => !(decide (lo ≤ e.1) && decide (e.1 < hi)))

/-- `t` with the entry at `k` changed by `f`. -/
def tmod {α : Type} (d : α) (k : Nat) (f : α → α) (t : Tbl α) : Tbl α := tset k (f (tget d t k)) t

/-! ## Sets of numbers as spans -/

/-- `l`, disjoint spans `[lo, hi)` in rising order, with `[lo, hi)` joined to them. -/
def spanAdd (lo hi : Nat) : List (Nat × Nat) → List (Nat × Nat)
  | [] => [(lo, hi)]
  | (a, b) :: t =>
    if hi < a then (lo, hi) :: (a, b) :: t
    else if b < lo then (a, b) :: spanAdd lo hi t
    else spanAdd (min a lo) (max b hi) t

/-- `l` without `[lo, hi)`. -/
def spanDel (lo hi : Nat) (l : List (Nat × Nat)) : List (Nat × Nat) :=
  l.flatMap (fun e =>
    (if e.1 < min e.2 lo then [(e.1, min e.2 lo)] else []) ++ (if max e.1 hi < e.2 then [(max e.1 hi, e.2)] else []))

def spanHas (l : List (Nat × Nat)) (k : Nat) : Bool := l.any (fun e => decide (e.1 ≤ k) && decide (k < e.2))

/-! ## Byte strings -/

/-- The unsigned value of `bs` read little-endian. -/
def leNat : Bytes → Nat
  | [] => 0
  | b :: bs => b.toNat + 256 * leNat bs

/-- The unsigned value of `bs` read big-endian. -/
def beNat (bs : Bytes) : Nat := bs.foldl (fun a b => a * 256 + b.toNat) 0

/-- `n` bytes of `v`, little-endian. -/
def leBytes : Nat → Nat → Bytes
  | 0, _ => []
  | n + 1, v => BitVec.ofNat 8 v :: leBytes n (v / 256)

/-- `n` bytes of `v`, big-endian. -/
def beBytes (n v : Nat) : Bytes := (leBytes n v).reverse

/-- `n` zero bytes. -/
def zeros (n : Nat) : Bytes := List.replicate n 0

/-- Bytes `off` to `off + n - 1` of `bs`; bytes beyond its end read 0. -/
def slice (bs : Bytes) (off n : Nat) : Bytes :=
  let t := (bs.drop off).take n
  t ++ zeros (n - t.length)

/-- Little-endian field of `n` bytes at `off`. -/
def le (bs : Bytes) (off n : Nat) : Nat := leNat (slice bs off n)

/-- Byte `off` as a number. -/
def byteAt (bs : Bytes) (off : Nat) : Nat := (bs.getD off 0).toNat

/-- Every byte of `bs` in `[off, off + n)` is 0. -/
def zeroAt (bs : Bytes) (off n : Nat) : Bool := (slice bs off n).all (· == 0)

/-- `bs` with `v` placed at `off` (within its length). -/
def putAt (bs : Bytes) (off : Nat) (v : Bytes) : Bytes :=
  (bs.take off ++ v ++ bs.drop (off + v.length)).take bs.length

/-- `bs` zero-padded to a multiple of `n` bytes. -/
def padTo (n : Nat) (bs : Bytes) : Bytes := bs ++ zeros ((n - bs.length % n) % n)

/-- `bs` cut into pieces of `n` bytes; `fuel` bounds the count. -/
def chunks (n : Nat) : Nat → Bytes → List Bytes
  | 0, _ => []
  | fuel + 1, bs => if bs.isEmpty then [] else bs.take n :: chunks n fuel (bs.drop n)

/-- The pieces of `n` bytes of `bs`, the last one short where the length is no multiple. -/
def piecesOf (n : Nat) (bs : Bytes) : List Bytes := chunks n (bs.length + 1) bs

/-- Bytewise exclusive or, of the length of the shorter. -/
def xorBytes (a b : Bytes) : Bytes := List.zipWith (· ^^^ ·) a b

/-- The bytes of an ASCII text. -/
def ascii (t : String) : Bytes := t.toList.map (fun c => BitVec.ofNat 8 c.toNat)

/-! ## Bit fields and numbers -/

/-- Bits `[lo + n - 1 : lo]` of a number. -/
def field (v lo n : Nat) : Nat := (v >>> lo) % 2 ^ n

/-- Bit `k` of a number. -/
def bit (v k : Nat) : Bool := field v k 1 == 1

/-- A truth value as a bit. -/
def b2n (b : Bool) : Nat := if b then 1 else 0

/-- Ceiling of a quotient. -/
def ceilDiv (a b : Nat) : Nat := (a + b - 1) / b

/-- The value of a word read as two's complement of `n` bits (the centred lift of R40 for 32 and 64). -/
def signed (n v : Nat) : Int := if 2 * (v % 2 ^ n) < 2 ^ n then (v % 2 ^ n : Nat) else (v % 2 ^ n : Nat) - (2 ^ n : Nat)

/-- The low `n` bits of an integer. -/
def wrap (n : Nat) (v : Int) : Nat := (v % (2 ^ n : Nat)).toNat

/-- `a` is after `b` by serial-number arithmetic of `n` bits (R23, R283, R403). -/
def seqAfter (n a b : Nat) : Bool := let d := (a + 2 ^ n - b % 2 ^ n) % 2 ^ n; decide (0 < d) && decide (d < 2 ^ (n - 1))

/-- `[a, a + n)` and `[b, b + m)` share a byte. -/
def overlaps (a n b m : Nat) : Bool := decide (a < b + m) && decide (b < a + n) && decide (0 < n) && decide (0 < m)

/-- Number of set bits among the low `n`. -/
def popcount (n v : Nat) : Nat := ((List.range n).filter (bit v)).length

/-- Positions of the set bits among the low `n`, ascending. -/
def bitsOf (n v : Nat) : List Nat := (List.range n).filter (bit v)

/-- `l` with its `i`-th entry changed by `f`. -/
def modAt {α : Type} (i : Nat) (f : α → α) : List α → List α
  | [] => []
  | x :: xs => match i with
    | 0 => f x :: xs
    | j + 1 => x :: modAt j f xs

/-! ## CRC-32C (R147) -/

/-- One bit step of the reflected Castagnoli polynomial. -/
def crcBit (c : Nat) : Nat := if c % 2 = 1 then (c >>> 1) ^^^ 0x82F63B78 else c >>> 1

/-- One byte step. -/
def crcByte (c : Nat) (b : Byte) : Nat :=
  crcBit (crcBit (crcBit (crcBit (crcBit (crcBit (crcBit (crcBit (c ^^^ b.toNat))))))))

/-- CRC-32C: initial value and final exclusive or 0xFFFF_FFFF (R147). -/
def crc32c (bs : Bytes) : Nat := (bs.foldl crcByte 0xFFFFFFFF) ^^^ 0xFFFFFFFF

end Sys2Proof.Machine
end

