-- ==== Sys2Proof/Machine/Codes.lean ====
section
/-! DEFINITION. The numbers of the codes: completion statuses (R399 to R401, and the status table of each chapter), event
codes (R398), event sources (R22), counter indices (R407). -/

namespace Sys2Proof.Machine


/-! ## Statuses 0x00xx: complete and correct (R399) -/

abbrev stOk : Nat := 0x0000

/-! ## Statuses 0x01xx: TRANSIENT (R400) -/

abbrev stTransientArray : Nat := 0x0101
abbrev stTransientGru : Nat := 0x0110
abbrev stTransientMem : Nat := 0x0120
abbrev stTransientFlash : Nat := 0x0130
abbrev stTransientEngine : Nat := 0x0140
abbrev stTransientCore : Nat := 0x0150

/-! ## Statuses 0x02xx: rejected as invalid (R399) -/

abbrev stFmtReserved : Nat := 0x0230
abbrev stFmtBsInvalid : Nat := 0x0231
abbrev stFmtPair : Nat := 0x0232
abbrev stFmtConversion : Nat := 0x0233
abbrev stTileOpcode : Nat := 0x0240
abbrev stTileField : Nat := 0x0241
abbrev stTileAlign : Nat := 0x0242
abbrev stTileSequence : Nat := 0x0243
abbrev stTileSpace : Nat := 0x0244
abbrev stTilePanel : Nat := 0x0245
abbrev stTileSlot : Nat := 0x0246
abbrev stTileFormatConflict : Nat := 0x0247
abbrev stSeamFormat : Nat := 0x0250
abbrev stSeamRange : Nat := 0x0251
abbrev stSeamClosed : Nat := 0x0252
abbrev stSeamRegionId : Nat := 0x0253
abbrev stSeamRegionBusy : Nat := 0x0254
abbrev stAggNotOpen : Nat := 0x0260
abbrev stAggWithdrawn : Nat := 0x0261
abbrev stAggRetractAbsent : Nat := 0x0262
abbrev stAggPolicy : Nat := 0x0263
abbrev stAggState : Nat := 0x0264
abbrev stAggTagBusy : Nat := 0x0265
abbrev stAggAddress : Nat := 0x0266
abbrev stShcFormat : Nat := 0x0270
abbrev stShcMember : Nat := 0x0271
abbrev stShcDuplicate : Nat := 0x0272
abbrev stShcNoncanonical : Nat := 0x0273
abbrev stShcNoRoster : Nat := 0x0274
abbrev stIngLength : Nat := 0x0280
abbrev stIngCrc : Nat := 0x0281
abbrev stIngFormat : Nat := 0x0282
abbrev stIngTag : Nat := 0x0283
abbrev stIngRing : Nat := 0x0284
abbrev stIngClient : Nat := 0x0285
abbrev stIngSegment : Nat := 0x0286
abbrev stIngPadding : Nat := 0x0287
abbrev stIngDuplicate : Nat := 0x0288
abbrev stGruParam : Nat := 0x0290
abbrev stGruFormat : Nat := 0x0291
abbrev stGruGate : Nat := 0x0292
abbrev stGruKeyFormat : Nat := 0x0293
abbrev stGruId : Nat := 0x0294
abbrev stFlcAlign : Nat := 0x02A0
abbrev stFlcField : Nat := 0x02A1
abbrev stHifOpcode : Nat := 0x02B0
abbrev stHifField : Nat := 0x02B1
abbrev stHifAlign : Nat := 0x02B2
abbrev stHifRing : Nat := 0x02B3
abbrev stHifRingState : Nat := 0x02B4
abbrev stFabField : Nat := 0x02C0
abbrev stFabPeer : Nat := 0x02C1
abbrev stFabLength : Nat := 0x02C2
abbrev stFabWindowId : Nat := 0x02C3
abbrev stFabNotFound : Nat := 0x02C4
abbrev stMrdField : Nat := 0x02D0
abbrev stMrdLayout : Nat := 0x02D1
abbrev stMrdNotFound : Nat := 0x02D2
abbrev stSecField : Nat := 0x02E0
abbrev stSecWeightId : Nat := 0x02E1
abbrev stFwField : Nat := 0x02F0
abbrev stFwState : Nat := 0x02F1

/-! ## Statuses 0x03xx: resource (R399) -/

abbrev stPnlSpillSpace : Nat := 0x0301
abbrev stSeamSpace : Nat := 0x0302
abbrev stAggSlotBusy : Nat := 0x0310
abbrev stAggSpace : Nat := 0x0311
abbrev stAggMarks : Nat := 0x0312
abbrev stGruBusy : Nat := 0x0320
abbrev stGruNone : Nat := 0x0321
abbrev stGruSpace : Nat := 0x0322
abbrev stFlcWriteProtect : Nat := 0x0330
abbrev stFlcSpace : Nat := 0x0331
abbrev stFlcCkptSpace : Nat := 0x0332
abbrev stFlcNoCkpt : Nat := 0x0333
abbrev stHifHostUnreachable : Nat := 0x0340
abbrev stHifSpace : Nat := 0x0342
abbrev stFabTriggerFull : Nat := 0x0350
abbrev stFabBusy : Nat := 0x0351
abbrev stFabTruncated : Nat := 0x0352
abbrev stFabRemoteQueue : Nat := 0x0354
abbrev stMrdFull : Nat := 0x0360
abbrev stMrdConflict : Nat := 0x0361
abbrev stMrdMarksSet : Nat := 0x0362
abbrev stSecSlotBusy : Nat := 0x0370
abbrev stSecLogFull : Nat := 0x0373
abbrev stFwNoDump : Nat := 0x0380

/-! ## Statuses 0x04xx: security (R399) -/

abbrev stTilePrivateSource : Nat := 0x0401
abbrev stAggLocked : Nat := 0x0410
abbrev stAggNoSession : Nat := 0x0411
abbrev stHifFunction : Nat := 0x0412
abbrev stShcBinding : Nat := 0x0420
abbrev stShcOpen : Nat := 0x0421
abbrev stShcRoster : Nat := 0x0422
abbrev stIngAlive : Nat := 0x0430
abbrev stGruConstAuth : Nat := 0x0440
abbrev stGruKeySlot : Nat := 0x0441
abbrev stGruLocked : Nat := 0x0442
abbrev stFlcNoKey : Nat := 0x0450
abbrev stFabRemoteAccess : Nat := 0x0460
abbrev stFabNoKey : Nat := 0x0461
abbrev stSecSlotAttr : Nat := 0x0470
abbrev stSecKeyZeroised : Nat := 0x0471
abbrev stSecSealed : Nat := 0x0472
abbrev stSecWeightAuth : Nat := 0x0473
abbrev stSecNotTenant : Nat := 0x0474
abbrev stSecUnwrap : Nat := 0x0475
abbrev stSecNoExport : Nat := 0x0476
abbrev stSecFaultSecure : Nat := 0x0477
abbrev stSecRetired : Nat := 0x0478
abbrev stFwManifest : Nat := 0x0480
abbrev stFwPartAuth : Nat := 0x0481
abbrev stFwRollback : Nat := 0x0482
abbrev stFwSet : Nat := 0x0483

/-! ## Statuses 0x05xx: LASTING (R401) -/

abbrev stPnlArrayLost : Nat := 0x0501
abbrev stLastingArray : Nat := 0x0502
abbrev stGruLost : Nat := 0x0510
abbrev stLastingGru : Nat := 0x0511
abbrev stMemUncorrectable : Nat := 0x0520
abbrev stMemPoison : Nat := 0x0521
abbrev stFlcUncorrectable : Nat := 0x0530
abbrev stLastingFlash : Nat := 0x0531
abbrev stFlcTorn : Nat := 0x0532
abbrev stFabPlacementFailed : Nat := 0x0540
abbrev stFabPortsDown : Nat := 0x0541
abbrev stFwCoreFault : Nat := 0x0550
abbrev stLastingEngine : Nat := 0x0560

/-! ## Statuses 0x06xx: timing or mark (R399) -/

abbrev stAggLate : Nat := 0x0601
abbrev stAggNotAdmitted : Nat := 0x0602
abbrev stAggMarkPast : Nat := 0x0603
abbrev stAggTooLate : Nat := 0x0604
abbrev stShcClosed : Nat := 0x0605
abbrev stAggAborted : Nat := 0x0606
abbrev stFabTimeout : Nat := 0x0610
abbrev stFabTooLate : Nat := 0x0611
abbrev stFabCancelled : Nat := 0x0612
abbrev stMrdMarkPast : Nat := 0x0620
abbrev stMrdTooLate : Nat := 0x0623

/-! ## Event codes (R398) -/

abbrev evGlbDetWithdrawn : Nat := 0x0101
abbrev evHifDriverLost : Nat := 0x0201
abbrev evPnlSync : Nat := 0x0301
abbrev evPnlRemap : Nat := 0x0302
abbrev evPnlDegraded : Nat := 0x0303
abbrev evAggState : Nat := 0x0401
abbrev evAggIncomplete : Nat := 0x0402
abbrev evAggSealed : Nat := 0x0403
abbrev evAggReleased : Nat := 0x0404
abbrev evLoomStalled : Nat := 0x0501
abbrev evShcInconsistent : Nat := 0x0601
abbrev evGruOffline : Nat := 0x0701
abbrev evMemPoison : Nat := 0x0801
abbrev evMemRowRetired : Nat := 0x0802
abbrev evMemUnitDefective : Nat := 0x0803
abbrev evSeamLateAdd : Nat := 0x0901
abbrev evFlcGrownDefect : Nat := 0x0A01
abbrev evFlcDieReadOnly : Nat := 0x0A02
abbrev evFlcWriteProtect : Nat := 0x0A03
abbrev evFlcBudgetShort : Nat := 0x0A04
abbrev evFlcDumpIncomplete : Nat := 0x0A05
abbrev evFlcTorn : Nat := 0x0A06
abbrev evFabAuthFail : Nat := 0x0B01
abbrev evFabAccessViolation : Nat := 0x0B02
abbrev evFabPlacementFail : Nat := 0x0B03
abbrev evFabWriteFailed : Nat := 0x0B04
abbrev evFabPortDown : Nat := 0x0B05
abbrev evFabPortUp : Nat := 0x0B06
abbrev evMrdOffsetLarge : Nat := 0x0C01
abbrev evMrdMark : Nat := 0x0C02
abbrev evMrdMarkDone : Nat := 0x0C03
abbrev evMrdMarkAborted : Nat := 0x0C04
abbrev evMrdRolledBack : Nat := 0x0C05
abbrev evMrdRollbackFault : Nat := 0x0C06
abbrev evSecLifecycleMismatch : Nat := 0x0D01
abbrev evSecTenantClaimed : Nat := 0x0D02
abbrev evSecSession : Nat := 0x0D03
abbrev evSecFaultSecure : Nat := 0x0D04
abbrev evSecInjectDenied : Nat := 0x0D05
abbrev evRngHealthFail : Nat := 0x0E01
abbrev evRngFatal : Nat := 0x0E02
abbrev evPwrAuxSource : Nat := 0x0F01
abbrev evPwrStrapReserved : Nat := 0x0F02
abbrev evPwrBankDegraded : Nat := 0x0F03
abbrev evPwrBankFault : Nat := 0x0F04
abbrev evPwrThrottle : Nat := 0x0F05
abbrev evPwrTrip : Nat := 0x0F06
abbrev evFwMailboxOpen : Nat := 0x1001
abbrev evFwLoadRejected : Nat := 0x1002
abbrev evFwLoaded : Nat := 0x1003
abbrev evFwStaged : Nat := 0x1004
abbrev evFwBasted : Nat := 0x1005
abbrev evFwStitched : Nat := 0x1006
abbrev evFwFallback : Nat := 0x1007
abbrev evFwDump : Nat := 0x1008
abbrev evFwDumpLost : Nat := 0x1009
abbrev evCntOverflow : Nat := 0x1101
abbrev evIngCheck : Nat := 0x1201
abbrev evIngQueueReset : Nat := 0x1202

/-! ## Counters of the module page (R407) -/

-- indices 0 to 3 are the same on every page
abbrev cntTransient : Nat := 0
abbrev cntLasting : Nat := 1
abbrev cntBadAccess : Nat := 2
abbrev cntLockedWrite : Nat := 3
abbrev cntMemCorrectedA : Nat := 4
abbrev cntMemCorrectedB : Nat := 5
abbrev cntMemRetired : Nat := 6
abbrev cntFlcCorrected : Nat := 7
abbrev cntFlcRefresh : Nat := 8
abbrev cntFlcRetired : Nat := 9
abbrev cntFlcGateWait : Nat := 10
abbrev cntFlcTorn : Nat := 11
abbrev cntFabFormat : Nat := 12
abbrev cntFabNoJob : Nat := 13
abbrev cntFabAged : Nat := 14
abbrev cntRngHealthFail : Nat := 15
abbrev cntSecDbgWrite : Nat := 16
abbrev cntPwrThrottle : Nat := 17
abbrev cntFwBadConfirm : Nat := 18
abbrev cntFwDumpLost : Nat := 19
abbrev modCntHifBadDoorbell : Nat := 20
abbrev modCntHifEvDrop : Nat := 21
abbrev modCntHifStick : Nat := 22
abbrev modCntHifHeldDiscard : Nat := 23
abbrev modCntHifIdeReject : Nat := 24

/-! ## Counters of a partition page (R407) -/

abbrev cntF61Noncanonical : Nat := 4
abbrev cntConvSat : Nat := 5
abbrev cntConvNan : Nat := 6
abbrev cntPnlSpillIn : Nat := 7
abbrev cntPnlSpillOut : Nat := 8
abbrev cntPnlStallMem : Nat := 9
abbrev cntPnlSat : Nat := 10
abbrev cntPnlInexact : Nat := 11
abbrev cntSeamHeadroom : Nat := 12
abbrev cntSeamLateAdd : Nat := 13
abbrev cntGruStallKey : Nat := 14
abbrev cntGruBootstraps : Nat := 15
abbrev cntMemWaitA : Nat := 16
abbrev cntMemWaitB : Nat := 17
abbrev cntIngAccepted : Nat := 18
abbrev cntIngRetracted : Nat := 19
abbrev cntIngLength : Nat := 20
abbrev cntIngCrc : Nat := 21
abbrev cntIngFormat : Nat := 22
abbrev cntIngTag : Nat := 23
abbrev cntIngRing : Nat := 24
abbrev cntIngClient : Nat := 25
abbrev cntIngSegment : Nat := 26
abbrev cntIngPadding : Nat := 27
abbrev cntIngAlive : Nat := 28
abbrev cntIngDuplicate : Nat := 29
abbrev cntIngNotOpen : Nat := 30
abbrev cntIngWithdrawn : Nat := 31
abbrev cntIngRetractAbsent : Nat := 32
abbrev cntIngLate : Nat := 33
abbrev cntIngNotAdmitted : Nat := 34
abbrev cntIngFullNack : Nat := 35
abbrev cntIngOverrun : Nat := 36
abbrev cntIngFlushed : Nat := 37
abbrev cntIngQresetDrop : Nat := 38
abbrev cntFabAuthFail : Nat := 39
abbrev cntFabDup : Nat := 40
abbrev cntFabStale : Nat := 41
abbrev cntFabStaleGen : Nat := 42
abbrev cntFabTruncated : Nat := 43
abbrev cntFabAccess : Nat := 44
abbrev cntFabCcWait : Nat := 45
abbrev partCntHifBadDoorbell : Nat := 46
abbrev partCntHifEvDrop : Nat := 47
abbrev partCntHifStick : Nat := 48
abbrev partCntHifHeldDiscard : Nat := 49
abbrev partCntHifIdeReject : Nat := 50

/-! ## Sources (R22) -/

/-- Source ID of unit `inst` of class `cls`. -/
abbrev srcId (cls inst : Nat) : Nat := cls * 1024 + inst

abbrev srcGlobal : Nat := srcId 0x00 0
abbrev srcPanel (p : Nat) : Nat := srcId 0x01 p
abbrev srcEngine (p : Nat) : Nat := srcId 0x02 p
abbrev srcCheck (p : Nat) : Nat := srcId 0x03 p
abbrev srcSeam (u : Nat) : Nat := srcId 0x04 u
abbrev srcLoom : Nat := srcId 0x05 0
abbrev srcCombiner : Nat := srcId 0x06 0
abbrev srcGru (g : Nat) : Nat := srcId 0x07 g
abbrev srcTierA (c : Nat) : Nat := srcId 0x08 c
abbrev srcTierB (c : Nat) : Nat := srcId 0x09 c
abbrev srcFlash : Nat := srcId 0x0A 0
abbrev srcHost : Nat := srcId 0x0B 0
abbrev srcPort (k : Nat) : Nat := srcId 0x0C k
abbrev srcMeridian : Nat := srcId 0x0D 0
abbrev srcThimble : Nat := srcId 0x0E 0
abbrev srcPower : Nat := srcId 0x0F 0
abbrev srcScheduler : Nat := srcId 0x10 0
abbrev srcRng : Nat := srcId 0x11 0

end Sys2Proof.Machine
end

