-- ==== Sys2Proof/Machine/Mem.lean ====
section
/-! DEFINITION. A byte memory as a list of cells in one canonical form: addresses strictly rising, no entry equal to
what an unlisted address reads as. An unlisted byte reads 0: blank lines (R197, R198) and scratch before its first
write (notes/assumptions/12.md). -/

namespace Sys2Proof.Machine

/-- A sparse byte memory. -/
abbrev Mem := List Host.Cell

/-- What an unlisted address reads as (R197). -/
def memDefault : Byte := 0

/-- Every cell of `m` lies at or above `lo`, in strictly rising order, and none holds the default. -/
def memSorted : Nat → Mem → Bool
  | _, [] => true
  | lo, (a, b) :: m => decide (lo ≤ a) && (b != memDefault) && memSorted (a + 1) m

/-- The canonical form. -/
def Memory.wf (m : Mem) : Bool := memSorted 0 m

/-- The byte at an address. -/
def rdByte : Mem → Nat → Byte
  | [], _ => memDefault
  | (a', b) :: m, a => if a = a' then b else rdByte m a

/-- `m` with `v` at `a`, in canonical form. -/
def wrByte (a : Nat) (v : Byte) : Mem → Mem
  | [] => if v = memDefault then [] else [(a, v)]
  | (a', b) :: m =>
    if a = a' then (if v = memDefault then m else (a, v) :: m)
    else if a < a' then (if v = memDefault then (a', b) :: m else (a, v) :: (a', b) :: m)
    else (a', b) :: wrByte a v m

/-- `n` bytes from `a`. -/
def rdBytes (m : Mem) (a : Nat) : Nat → Bytes
  | 0 => []
  | n + 1 => rdByte m a :: rdBytes m (a + 1) n

/-- `m` with `bs` written from `a`. -/
def wrBytes (a : Nat) : Bytes → Mem → Mem
  | [], m => m
  | b :: bs, m => wrBytes (a + 1) bs (wrByte a b m)

/-- `m` with `[lo, hi)` at the default (blanking and scrubbing, R198, R115). -/
def clearMem (lo hi : Nat) (m : Mem) : Mem := m.filter (fun c => !(decide (lo ≤ c.1) && decide (c.1 < hi)))

end Sys2Proof.Machine
end

