-- ==== Sys2Proof/Machine/Sha.lean ====
section
/-! DEFINITION. The hash functions that the spec names: SHA-384 (R97, R109, R126, R181, R325 ...), HMAC-SHA-384 and
HKDF-SHA384 (R275, R324, R325, R332, R355), and SHA3-384 (R348), as FIPS 180-4, FIPS 198-1, RFC 5869 and FIPS 202
define them. -/

namespace Sys2Proof.Machine

/-! ## SHA-384 -/

def shaK0 : List Nat :=
  [0x428A2F98D728AE22, 0x7137449123EF65CD, 0xB5C0FBCFEC4D3B2F, 0xE9B5DBA58189DBBC,
   0x3956C25BF348B538, 0x59F111F1B605D019, 0x923F82A4AF194F9B, 0xAB1C5ED5DA6D8118,
   0xD807AA98A3030242, 0x12835B0145706FBE, 0x243185BE4EE4B28C, 0x550C7DC3D5FFB4E2,
   0x72BE5D74F27B896F, 0x80DEB1FE3B1696B1, 0x9BDC06A725C71235, 0xC19BF174CF692694,
   0xE49B69C19EF14AD2, 0xEFBE4786384F25E3, 0x0FC19DC68B8CD5B5, 0x240CA1CC77AC9C65]

def shaK1 : List Nat :=
  [0x2DE92C6F592B0275, 0x4A7484AA6EA6E483, 0x5CB0A9DCBD41FBD4, 0x76F988DA831153B5,
   0x983E5152EE66DFAB, 0xA831C66D2DB43210, 0xB00327C898FB213F, 0xBF597FC7BEEF0EE4,
   0xC6E00BF33DA88FC2, 0xD5A79147930AA725, 0x06CA6351E003826F, 0x142929670A0E6E70,
   0x27B70A8546D22FFC, 0x2E1B21385C26C926, 0x4D2C6DFC5AC42AED, 0x53380D139D95B3DF,
   0x650A73548BAF63DE, 0x766A0ABB3C77B2A8, 0x81C2C92E47EDAEE6, 0x92722C851482353B]

def shaK2 : List Nat :=
  [0xA2BFE8A14CF10364, 0xA81A664BBC423001, 0xC24B8B70D0F89791, 0xC76C51A30654BE30,
   0xD192E819D6EF5218, 0xD69906245565A910, 0xF40E35855771202A, 0x106AA07032BBD1B8,
   0x19A4C116B8D2D0C8, 0x1E376C085141AB53, 0x2748774CDF8EEB99, 0x34B0BCB5E19B48A8,
   0x391C0CB3C5C95A63, 0x4ED8AA4AE3418ACB, 0x5B9CCA4F7763E373, 0x682E6FF3D6B2B8A3,
   0x748F82EE5DEFB2FC, 0x78A5636F43172F60, 0x84C87814A1F0AB72, 0x8CC702081A6439EC]

def shaK3 : List Nat :=
  [0x90BEFFFA23631E28, 0xA4506CEBDE82BDE9, 0xBEF9A3F7B2C67915, 0xC67178F2E372532B,
   0xCA273ECEEA26619C, 0xD186B8C721C0C207, 0xEADA7DD6CDE0EB1E, 0xF57D4F7FEE6ED178,
   0x06F067AA72176FBA, 0x0A637DC5A2C898A6, 0x113F9804BEF90DAE, 0x1B710B35131C471B,
   0x28DB77F523047D84, 0x32CAAB7B40C72493, 0x3C9EBE0A15C9BEBC, 0x431D67C49C100D4C,
   0x4CC5D4BECB3E42B6, 0x597F299CFC657E2A, 0x5FCB6FAB3AD6FAEC, 0x6C44198C4A475817]

/-- The 80 round constants of SHA-512. -/
def shaK : List Nat := shaK0 ++ shaK1 ++ shaK2 ++ shaK3

/-- The initial hash value of SHA-384. -/
def shaInit : List Nat :=
  [0xCBBB9D5DC1059ED8, 0x629A292A367CD507, 0x9159015A3070DD17, 0x152FECD8F70E5939,
   0x67332667FFC00B31, 0x8EB44A8768581511, 0xDB0C2E0D64F98FA7, 0x47B5481DBEFA4FA4]

/-- Low 64 bits. -/
def m64 (x : Nat) : Nat := x % 0x10000000000000000

/-- Rotation right of a 64-bit number. -/
def ror64 (n x : Nat) : Nat := m64 ((x >>> n) ||| (x <<< (64 - n)))

/-- The complement of a 64-bit number. -/
def not64 (x : Nat) : Nat := x ^^^ 0xFFFFFFFFFFFFFFFF

/-- Extends the message schedule, newest word first, by `n` words. -/
def shaSchedule : Nat → List Nat → List Nat
  | 0, w => w
  | n + 1, w =>
    let a := w.getD 1 0
    let b := w.getD 14 0
    let s1 := ror64 19 a ^^^ ror64 61 a ^^^ (a >>> 6)
    let s0 := ror64 1 b ^^^ ror64 8 b ^^^ (b >>> 7)
    shaSchedule n (m64 (s1 + w.getD 6 0 + s0 + w.getD 15 0) :: w)

/-- The rounds over pairs of constant and schedule word. -/
def shaRounds : List (Nat × Nat) → Nat → Nat → Nat → Nat → Nat → Nat → Nat → Nat → List Nat
  | [], a, b, c, d, e, f, g, h => [a, b, c, d, e, f, g, h]
  | (k, w) :: kw, a, b, c, d, e, f, g, h =>
    let t1 := h + (ror64 14 e ^^^ ror64 18 e ^^^ ror64 41 e) + ((e &&& f) ^^^ (not64 e &&& g)) + k + w
    let t2 := (ror64 28 a ^^^ ror64 34 a ^^^ ror64 39 a) + ((a &&& b) ^^^ (a &&& c) ^^^ (b &&& c))
    shaRounds kw (m64 (t1 + t2)) a b c (m64 (d + t1)) e f g

/-- One block of 128 bytes. -/
def shaBlock (h : List Nat) (blk : Bytes) : List Nat :=
  let w := (piecesOf 8 blk).map beNat
  let kw := List.zip shaK (shaSchedule 64 w.reverse).reverse
  let r := shaRounds kw (h.getD 0 0) (h.getD 1 0) (h.getD 2 0) (h.getD 3 0) (h.getD 4 0) (h.getD 5 0) (h.getD 6 0) (h.getD 7 0)
  List.zipWith (fun x y => m64 (x + y)) h r

/-- The padded message. -/
def shaPad (bs : Bytes) : Bytes :=
  let z := (240 - (bs.length + 1) % 128) % 128
  bs ++ [0x80] ++ zeros z ++ beBytes 16 (8 * bs.length)

/-- SHA-384: 48 bytes. -/
def sha384 (bs : Bytes) : Bytes :=
  (((piecesOf 128 (shaPad bs)).foldl shaBlock shaInit).map (beBytes 8)).flatten.take 48

/-- HMAC-SHA-384. -/
def hmac384 (key msg : Bytes) : Bytes :=
  let k := if key.length > 128 then sha384 key else key
  let k := k ++ zeros (128 - k.length)
  sha384 (k.map (· ^^^ 0x5C) ++ sha384 (k.map (· ^^^ 0x36) ++ msg))

/-- HKDF-Extract. -/
def hkdfExtract (salt ikm : Bytes) : Bytes := hmac384 salt ikm

/-- The blocks T(i) of HKDF-Expand, `n` of them from number `i`. -/
def hkdfBlocks (prk info : Bytes) : Nat → Nat → Bytes → Bytes
  | 0, _, _ => []
  | n + 1, i, prev =>
    let t := hmac384 prk (prev ++ info ++ [BitVec.ofNat 8 i])
    t ++ hkdfBlocks prk info n (i + 1) t

/-- HKDF-Expand to `len` bytes. -/
def hkdfExpand (prk info : Bytes) (len : Nat) : Bytes := (hkdfBlocks prk info (ceilDiv len 48) 1 []).take len

/-- HKDF-SHA384. -/
def hkdf384 (ikm salt info : Bytes) (len : Nat) : Bytes := hkdfExpand (hkdfExtract salt ikm) info len

/-! ## SHA3-384 -/

/-- The states of the generator of FIPS 202 algorithm 5: x^8 + x^6 + x^5 + x^4 + 1 over eight bits, `n` of them from `r`. -/
def keccakLfsr : Nat → Nat → List Nat
  | 0, _ => []
  | n + 1, r => r :: keccakLfsr n (if r < 128 then 2 * r else (2 * r) ^^^ 0x171)

/-- The constant of round `i`: bit 2^j − 1 is the low bit of generator state 7i + j. -/
def keccakIota (i : Nat) : Nat :=
  let seven := (keccakLfsr 168 1).drop (7 * i)
  ((List.range 7).map (fun j => seven.getD j 0 % 2 * 2 ^ (2 ^ j - 1))).sum

/-- The walk of rho from lane (x, y): each lane with its offset, the triangular number of its place. -/
def keccakWalk : Nat → Nat → Nat → Nat → List ((Nat × Nat) × Nat)
  | 0, _, _, _ => []
  | n + 1, t, x, y => ((x, y), (t + 1) * (t + 2) / 2 % 64) :: keccakWalk n (t + 1) y ((2 * x + 3 * y) % 5)

/-- The offset of a lane; lane (0, 0) is not turned. -/
def keccakOffset (x y : Nat) : Nat :=
  match (keccakWalk 24 0 1 0).find? (fun e => e.1 == (x, y)) with
  | some e => e.2
  | none => 0

/-- Rotation left of a 64-bit lane. -/
def rol64 (n x : Nat) : Nat := m64 ((x <<< n) ||| (x >>> (64 - n)))

/-- A state is five sheets, x = 0 to 4, each of five lanes, y = 0 to 4. -/
abbrev Sheets := List (List Nat)

def Sheets.lane (a : Sheets) (x y : Nat) : Nat := (a.getD (x % 5) []).getD (y % 5) 0

/-- A state from its lanes. -/
def sheets (f : Nat → Nat → Nat) : Sheets := (List.range 5).map (fun x => (List.range 5).map (f x))

/-- Theta: each lane takes the parities of the sheets beside its own. -/
def keccakTheta (a : Sheets) : Sheets :=
  let parity := a.map (fun sheet => sheet.foldl (· ^^^ ·) 0)
  a.mapIdx (fun x sheet =>
    let d := parity.getD ((x + 4) % 5) 0 ^^^ rol64 1 (parity.getD ((x + 1) % 5) 0)
    sheet.map (· ^^^ d))

/-- Rho and pi: lane (x, y) turned, to its new place. -/
def keccakMove (a : Sheets) : Sheets :=
  sheets (fun x y => rol64 (keccakOffset ((x + 3 * y) % 5) x) (a.lane (x + 3 * y) x))

/-- Chi and iota of round `i`. -/
def keccakMix (i : Nat) (a : Sheets) : Sheets :=
  sheets (fun x y =>
    let v := a.lane x y ^^^ (not64 (a.lane (x + 1) y) &&& a.lane (x + 2) y)
    if x = 0 ∧ y = 0 then v ^^^ keccakIota i else v)

/-- The permutation. -/
def keccakF (a : Sheets) : Sheets := (List.range 24).foldl (fun a i => keccakMix i (keccakMove (keccakTheta a))) a

/-- The message with its suffix 01 and pad10*1 up to a multiple of 104 bytes. -/
def sha3Pad (bs : Bytes) : Bytes :=
  match 103 - bs.length % 104 with
  | 0 => bs ++ [0x86]
  | z + 1 => bs ++ (0x06 :: zeros z) ++ [0x80]

/-- One block of 13 lanes goes into the state: lane (x, y) takes word x + 5y. -/
def sha3Absorb (a : Sheets) (block : Bytes) : Sheets :=
  keccakF (sheets (fun x y => a.lane x y ^^^ le block (8 * (x + 5 * y)) 8))

/-- SHA3-384: rate 104 bytes, 48 bytes out. -/
def sha3_384 (bs : Bytes) : Bytes :=
  let a := (piecesOf 104 (sha3Pad bs)).foldl sha3Absorb (sheets (fun _ _ => 0))
  (List.range 6).flatMap (fun i => leBytes 8 (a.lane (i % 5) (i / 5)))

end Sys2Proof.Machine
end

