-- ==== Sys2Proof/Machine/Aes.lean ====
section
/-! DEFINITION. AES-256 (FIPS 197) and the modes that the spec names: the counter blocks of the Matrix Loom (R123),
GCM (R129, R178, R275, R333, R355), XTS (R194, R218), the key wrap of RFC 3394 (R332) and CTR_DRBG of SP 800-90A
(R349). -/

namespace Sys2Proof.Machine

/-! ## The block cipher -/

def aesS0 : List Nat :=
  [0x63, 0x7C, 0x77, 0x7B, 0xF2, 0x6B, 0x6F, 0xC5, 0x30, 0x01, 0x67, 0x2B, 0xFE, 0xD7, 0xAB, 0x76,
   0xCA, 0x82, 0xC9, 0x7D, 0xFA, 0x59, 0x47, 0xF0, 0xAD, 0xD4, 0xA2, 0xAF, 0x9C, 0xA4, 0x72, 0xC0]

def aesS1 : List Nat :=
  [0xB7, 0xFD, 0x93, 0x26, 0x36, 0x3F, 0xF7, 0xCC, 0x34, 0xA5, 0xE5, 0xF1, 0x71, 0xD8, 0x31, 0x15,
   0x04, 0xC7, 0x23, 0xC3, 0x18, 0x96, 0x05, 0x9A, 0x07, 0x12, 0x80, 0xE2, 0xEB, 0x27, 0xB2, 0x75]

def aesS2 : List Nat :=
  [0x09, 0x83, 0x2C, 0x1A, 0x1B, 0x6E, 0x5A, 0xA0, 0x52, 0x3B, 0xD6, 0xB3, 0x29, 0xE3, 0x2F, 0x84,
   0x53, 0xD1, 0x00, 0xED, 0x20, 0xFC, 0xB1, 0x5B, 0x6A, 0xCB, 0xBE, 0x39, 0x4A, 0x4C, 0x58, 0xCF]

def aesS3 : List Nat :=
  [0xD0, 0xEF, 0xAA, 0xFB, 0x43, 0x4D, 0x33, 0x85, 0x45, 0xF9, 0x02, 0x7F, 0x50, 0x3C, 0x9F, 0xA8,
   0x51, 0xA3, 0x40, 0x8F, 0x92, 0x9D, 0x38, 0xF5, 0xBC, 0xB6, 0xDA, 0x21, 0x10, 0xFF, 0xF3, 0xD2]

def aesS4 : List Nat :=
  [0xCD, 0x0C, 0x13, 0xEC, 0x5F, 0x97, 0x44, 0x17, 0xC4, 0xA7, 0x7E, 0x3D, 0x64, 0x5D, 0x19, 0x73,
   0x60, 0x81, 0x4F, 0xDC, 0x22, 0x2A, 0x90, 0x88, 0x46, 0xEE, 0xB8, 0x14, 0xDE, 0x5E, 0x0B, 0xDB]

def aesS5 : List Nat :=
  [0xE0, 0x32, 0x3A, 0x0A, 0x49, 0x06, 0x24, 0x5C, 0xC2, 0xD3, 0xAC, 0x62, 0x91, 0x95, 0xE4, 0x79,
   0xE7, 0xC8, 0x37, 0x6D, 0x8D, 0xD5, 0x4E, 0xA9, 0x6C, 0x56, 0xF4, 0xEA, 0x65, 0x7A, 0xAE, 0x08]

def aesS6 : List Nat :=
  [0xBA, 0x78, 0x25, 0x2E, 0x1C, 0xA6, 0xB4, 0xC6, 0xE8, 0xDD, 0x74, 0x1F, 0x4B, 0xBD, 0x8B, 0x8A,
   0x70, 0x3E, 0xB5, 0x66, 0x48, 0x03, 0xF6, 0x0E, 0x61, 0x35, 0x57, 0xB9, 0x86, 0xC1, 0x1D, 0x9E]

def aesS7 : List Nat :=
  [0xE1, 0xF8, 0x98, 0x11, 0x69, 0xD9, 0x8E, 0x94, 0x9B, 0x1E, 0x87, 0xE9, 0xCE, 0x55, 0x28, 0xDF,
   0x8C, 0xA1, 0x89, 0x0D, 0xBF, 0xE6, 0x42, 0x68, 0x41, 0x99, 0x2D, 0x0F, 0xB0, 0x54, 0xBB, 0x16]

/-- The S-box. -/
def aesS : List Nat := aesS0 ++ aesS1 ++ aesS2 ++ aesS3 ++ aesS4 ++ aesS5 ++ aesS6 ++ aesS7

def aesI0 : List Nat :=
  [0x52, 0x09, 0x6A, 0xD5, 0x30, 0x36, 0xA5, 0x38, 0xBF, 0x40, 0xA3, 0x9E, 0x81, 0xF3, 0xD7, 0xFB,
   0x7C, 0xE3, 0x39, 0x82, 0x9B, 0x2F, 0xFF, 0x87, 0x34, 0x8E, 0x43, 0x44, 0xC4, 0xDE, 0xE9, 0xCB]

def aesI1 : List Nat :=
  [0x54, 0x7B, 0x94, 0x32, 0xA6, 0xC2, 0x23, 0x3D, 0xEE, 0x4C, 0x95, 0x0B, 0x42, 0xFA, 0xC3, 0x4E,
   0x08, 0x2E, 0xA1, 0x66, 0x28, 0xD9, 0x24, 0xB2, 0x76, 0x5B, 0xA2, 0x49, 0x6D, 0x8B, 0xD1, 0x25]

def aesI2 : List Nat :=
  [0x72, 0xF8, 0xF6, 0x64, 0x86, 0x68, 0x98, 0x16, 0xD4, 0xA4, 0x5C, 0xCC, 0x5D, 0x65, 0xB6, 0x92,
   0x6C, 0x70, 0x48, 0x50, 0xFD, 0xED, 0xB9, 0xDA, 0x5E, 0x15, 0x46, 0x57, 0xA7, 0x8D, 0x9D, 0x84]

def aesI3 : List Nat :=
  [0x90, 0xD8, 0xAB, 0x00, 0x8C, 0xBC, 0xD3, 0x0A, 0xF7, 0xE4, 0x58, 0x05, 0xB8, 0xB3, 0x45, 0x06,
   0xD0, 0x2C, 0x1E, 0x8F, 0xCA, 0x3F, 0x0F, 0x02, 0xC1, 0xAF, 0xBD, 0x03, 0x01, 0x13, 0x8A, 0x6B]

def aesI4 : List Nat :=
  [0x3A, 0x91, 0x11, 0x41, 0x4F, 0x67, 0xDC, 0xEA, 0x97, 0xF2, 0xCF, 0xCE, 0xF0, 0xB4, 0xE6, 0x73,
   0x96, 0xAC, 0x74, 0x22, 0xE7, 0xAD, 0x35, 0x85, 0xE2, 0xF9, 0x37, 0xE8, 0x1C, 0x75, 0xDF, 0x6E]

def aesI5 : List Nat :=
  [0x47, 0xF1, 0x1A, 0x71, 0x1D, 0x29, 0xC5, 0x89, 0x6F, 0xB7, 0x62, 0x0E, 0xAA, 0x18, 0xBE, 0x1B,
   0xFC, 0x56, 0x3E, 0x4B, 0xC6, 0xD2, 0x79, 0x20, 0x9A, 0xDB, 0xC0, 0xFE, 0x78, 0xCD, 0x5A, 0xF4]

def aesI6 : List Nat :=
  [0x1F, 0xDD, 0xA8, 0x33, 0x88, 0x07, 0xC7, 0x31, 0xB1, 0x12, 0x10, 0x59, 0x27, 0x80, 0xEC, 0x5F,
   0x60, 0x51, 0x7F, 0xA9, 0x19, 0xB5, 0x4A, 0x0D, 0x2D, 0xE5, 0x7A, 0x9F, 0x93, 0xC9, 0x9C, 0xEF]

def aesI7 : List Nat :=
  [0xA0, 0xE0, 0x3B, 0x4D, 0xAE, 0x2A, 0xF5, 0xB0, 0xC8, 0xEB, 0xBB, 0x3C, 0x83, 0x53, 0x99, 0x61,
   0x17, 0x2B, 0x04, 0x7E, 0xBA, 0x77, 0xD6, 0x26, 0xE1, 0x69, 0x14, 0x63, 0x55, 0x21, 0x0C, 0x7D]

/-- The inverse S-box. -/
def aesI : List Nat := aesI0 ++ aesI1 ++ aesI2 ++ aesI3 ++ aesI4 ++ aesI5 ++ aesI6 ++ aesI7

/-- Multiplication by x in GF(2^8). -/
def gfX (a : Nat) : Nat := if a < 128 then 2 * a else (2 * a) % 256 ^^^ 0x1B

/-- Multiplication in GF(2^8) by a constant below 16. -/
def gfMul (k a : Nat) : Nat :=
  let a2 := gfX a
  let a4 := gfX a2
  let a8 := gfX a4
  (if bit k 0 then a else 0) ^^^ (if bit k 1 then a2 else 0) ^^^ (if bit k 2 then a4 else 0) ^^^ (if bit k 3 then a8 else 0)

/-- The S-box of a byte. -/
def subByte (a : Nat) : Nat := aesS.getD a 0

/-- The key schedule words, newest first, extended by `n` words; `i` is the number of the next word. -/
def aesExpand : Nat → Nat → Nat → List (List Nat) → List (List Nat)
  | 0, _, _, w => w
  | n + 1, i, rc, w =>
    let t := w.getD 0 []
    let u :=
      if i % 8 = 0 then
        List.zipWith (· ^^^ ·) [subByte (t.getD 1 0), subByte (t.getD 2 0), subByte (t.getD 3 0), subByte (t.getD 0 0)] [rc, 0, 0, 0]
      else if i % 8 = 4 then t.map subByte else t
    aesExpand n (i + 1) (if i % 8 = 0 then gfX rc else rc) (List.zipWith (· ^^^ ·) (w.getD 7 []) u :: w)

/-- Groups of four words as round keys of 16 bytes. -/
def aesGroup : List (List Nat) → List (List Nat)
  | a :: b :: c :: d :: r => (a ++ b ++ c ++ d) :: aesGroup r
  | _ => []

/-- The 15 round keys of a 32-byte key. -/
def aesKeys (key : Bytes) : List (List Nat) :=
  let k := (piecesOf 4 (slice key 0 32)).map (fun w => w.map BitVec.toNat)
  aesGroup (aesExpand 52 8 1 k.reverse).reverse

/-- Bytewise exclusive or of states. -/
def xorN (a b : List Nat) : List Nat := List.zipWith (· ^^^ ·) a b

/-- ShiftRows and its inverse, as the source positions of the 16 bytes. -/
def shiftPos : List Nat := [0, 5, 10, 15, 4, 9, 14, 3, 8, 13, 2, 7, 12, 1, 6, 11]
def unshiftPos : List Nat := [0, 13, 10, 7, 4, 1, 14, 11, 8, 5, 2, 15, 12, 9, 6, 3]

/-- A column times the circulant matrix of `k0 k1 k2 k3`. -/
def mixCol (k0 k1 k2 k3 : Nat) (c : List Nat) : List Nat :=
  let a := c.getD 0 0
  let b := c.getD 1 0
  let d := c.getD 2 0
  let e := c.getD 3 0
  [gfMul k0 a ^^^ gfMul k1 b ^^^ gfMul k2 d ^^^ gfMul k3 e, gfMul k3 a ^^^ gfMul k0 b ^^^ gfMul k1 d ^^^ gfMul k2 e,
   gfMul k2 a ^^^ gfMul k3 b ^^^ gfMul k0 d ^^^ gfMul k1 e, gfMul k1 a ^^^ gfMul k2 b ^^^ gfMul k3 d ^^^ gfMul k0 e]

/-- The four columns mixed. -/
def mixAll (k0 k1 k2 k3 : Nat) (s : List Nat) : List Nat :=
  mixCol k0 k1 k2 k3 (s.take 4) ++ mixCol k0 k1 k2 k3 ((s.drop 4).take 4) ++ mixCol k0 k1 k2 k3 ((s.drop 8).take 4)
    ++ mixCol k0 k1 k2 k3 (s.drop 12)

/-- The rounds after the first AddRoundKey. -/
def aesRounds : List (List Nat) → List Nat → List Nat
  | [], s => s
  | [k], s => xorN (shiftPos.map (fun i => subByte (s.getD i 0))) k
  | k :: ks, s => aesRounds ks (xorN (mixAll 2 3 1 1 (shiftPos.map (fun i => subByte (s.getD i 0)))) k)

/-- The inverse rounds, keys from the last. -/
def aesUnrounds : List (List Nat) → List Nat → List Nat
  | [], s => s
  | [k], s => xorN (unshiftPos.map (fun i => aesI.getD (s.getD i 0) 0)) k
  | k :: ks, s => aesUnrounds ks (mixAll 14 11 13 9 (xorN (unshiftPos.map (fun i => aesI.getD (s.getD i 0) 0)) k))

/-- AES-256 encryption of one block of 16 bytes. -/
def aesEncrypt (key blk : Bytes) : Bytes :=
  match aesKeys key with
  | [] => blk
  | k :: ks => (aesRounds ks (xorN ((slice blk 0 16).map BitVec.toNat) k)).map (BitVec.ofNat 8)

/-- AES-256 decryption of one block. -/
def aesDecrypt (key blk : Bytes) : Bytes :=
  match (aesKeys key).reverse with
  | [] => blk
  | k :: ks => (aesUnrounds ks (xorN ((slice blk 0 16).map BitVec.toNat) k)).map (BitVec.ofNat 8)

/-! ## GCM -/

/-- One step of GF(2^128) multiplication with the reflected bit order of GCM. -/
def ghStep (h : Nat) (zv : Nat × Nat) (i : Nat) : Nat × Nat :=
  let z := if bit h (127 - i) then zv.1 ^^^ zv.2 else zv.1
  let v := if zv.2 % 2 = 1 then (zv.2 >>> 1) ^^^ 0xE1000000000000000000000000000000 else zv.2 >>> 1
  (z, v)

/-- GF(2^128) product. -/
def ghMul (x h : Nat) : Nat := ((List.range 128).foldl (ghStep x) (0, h)).1

/-- GHASH. -/
def ghash (h : Nat) (bs : Bytes) : Nat := (piecesOf 16 bs).foldl (fun y b => ghMul (y ^^^ beNat (slice b 0 16)) h) 0

/-- CTR keystream of the blocks from counter `ctr` under the 12-byte nonce. -/
def gcmCtr (key iv : Bytes) : Nat → List Bytes → Bytes
  | _, [] => []
  | ctr, b :: bs => xorBytes b (aesEncrypt key (iv ++ beBytes 4 ctr)) ++ gcmCtr key iv (ctr + 1) bs

/-- The GCM tag over associated data and ciphertext. -/
def gcmTag (key iv aad ct : Bytes) : Bytes :=
  let h := beNat (aesEncrypt key (zeros 16))
  let g := ghash h (padTo 16 aad ++ padTo 16 ct ++ beBytes 8 (8 * aad.length) ++ beBytes 8 (8 * ct.length))
  xorBytes (beBytes 16 g) (aesEncrypt key (iv ++ beBytes 4 1))

/-- GCM encryption: ciphertext. -/
def gcmCrypt (key iv data : Bytes) : Bytes := gcmCtr key iv 2 (piecesOf 16 data)

/-- GCM opening: the plaintext, where the tag verifies. -/
def gcmOpen (key iv aad ct tag : Bytes) : Option Bytes :=
  if gcmTag key iv aad ct = tag then some (gcmCrypt key iv ct) else none

/-! ## XTS -/

/-- Multiplication of the tweak by x (little-endian, IEEE 1619). -/
def xtsDouble (t : Nat) : Nat :=
  let d := (2 * t) % 2 ^ 128
  if bit t 127 then d ^^^ 0x87 else d

/-- XTS over 16-byte blocks with the tweak value `t` of the first. -/
def xtsBlocks (enc : Bytes → Bytes) : Nat → List Bytes → Bytes
  | _, [] => []
  | t, b :: bs => xorBytes (enc (xorBytes b (leBytes 16 t))) (leBytes 16 t) ++ xtsBlocks enc (xtsDouble t) bs

/-- AES-256-XTS encryption of a data unit under its 128-bit tweak. -/
def xtsEncrypt (key : Bytes) (tweak : Nat) (data : Bytes) : Bytes :=
  let k := Config.xtsKeys key
  xtsBlocks (aesEncrypt k.1) (leNat (aesEncrypt k.2 (leBytes 16 tweak))) (piecesOf 16 data)

/-- AES-256-XTS decryption of a data unit under its 128-bit tweak. -/
def xtsDecrypt (key : Bytes) (tweak : Nat) (data : Bytes) : Bytes :=
  let k := Config.xtsKeys key
  xtsBlocks (aesDecrypt k.1) (leNat (aesEncrypt k.2 (leBytes 16 tweak))) (piecesOf 16 data)

/-! ## Key wrap, RFC 3394 -/

/-- One wrapping step: A, the registers R and the step number t. -/
def wrapStep (key : Bytes) (st : Bytes × List Bytes) (t : Nat) : Bytes × List Bytes :=
  let i := (t - 1) % 4
  let b := aesEncrypt key (st.1 ++ st.2.getD i [])
  (xorBytes (b.take 8) (beBytes 8 t), st.2.set i (b.drop 8))

/-- The 40-byte wrap of a 32-byte key. -/
def keyWrap3394 (kek key : Bytes) : Bytes :=
  let r := ((List.range 24).map (· + 1)).foldl (wrapStep kek) (List.replicate 8 0xA6, piecesOf 8 (slice key 0 32))
  r.1 ++ r.2.flatten

/-- One unwrapping step. -/
def unwrapStep (key : Bytes) (st : Bytes × List Bytes) (t : Nat) : Bytes × List Bytes :=
  let i := (t - 1) % 4
  let b := aesDecrypt key (xorBytes st.1 (beBytes 8 t) ++ st.2.getD i [])
  (b.take 8, st.2.set i (b.drop 8))

/-- The 32-byte key of a 40-byte wrap, where the integrity check passes. -/
def keyUnwrap3394 (kek w : Bytes) : Option Bytes :=
  let r := ((List.range 24).map (· + 1)).reverse.foldl (unwrapStep kek) (w.take 8, piecesOf 8 (slice w 8 32))
  if r.1 = List.replicate 8 0xA6 then some r.2.flatten else none

/-! ## CTR_DRBG with AES-256 and a derivation function (R349) -/

/-- The working state: Key, V and the requests since the last seed. -/
structure Drbg where
  key   : Bytes
  v     : Nat
  count : Nat
deriving DecidableEq, Repr

/-- `n` output blocks from V + 1. -/
def drbgBlocks (key : Bytes) : Nat → Nat → Bytes
  | 0, _ => []
  | n + 1, v =>
    let v' := (v + 1) % 2 ^ 128
    aesEncrypt key (beBytes 16 v') ++ drbgBlocks key n v'

/-- CTR_DRBG_Update with 48 bytes of data. -/
def drbgUpdate (d : Drbg) (data : Bytes) : Drbg :=
  let t := xorBytes (drbgBlocks d.key 3 d.v) (slice data 0 48)
  { d with key := t.take 32, v := beNat (t.drop 32) }

/-- BCC of the derivation function. -/
def drbgBcc (key data : Bytes) : Bytes :=
  (piecesOf 16 data).foldl (fun c b => aesEncrypt key (xorBytes c (slice b 0 16))) (zeros 16)

/-- The derivation function to 48 bytes. -/
def drbgDf (input : Bytes) : Bytes :=
  let s := padTo 16 (beBytes 4 input.length ++ beBytes 4 48 ++ input ++ [0x80])
  let k : Bytes := (List.range 32).map (BitVec.ofNat 8)
  let t := drbgBcc k (beBytes 4 0 ++ zeros 12 ++ s) ++ drbgBcc k (beBytes 4 1 ++ zeros 12 ++ s)
    ++ drbgBcc k (beBytes 4 2 ++ zeros 12 ++ s)
  let key := t.take 32
  let x1 := aesEncrypt key (t.drop 32)
  let x2 := aesEncrypt key x1
  x1 ++ x2 ++ aesEncrypt key x2

/-- Instantiation from entropy, nonce and personalisation string. -/
def drbgInit (entropy nonce pers : Bytes) : Drbg :=
  let d := drbgUpdate ⟨zeros 32, 0, 0⟩ (drbgDf (entropy ++ nonce ++ pers))
  { d with count := 1 }

/-- Reseed from fresh entropy. -/
def drbgReseed (d : Drbg) (entropy : Bytes) : Drbg :=
  let e := drbgUpdate d (drbgDf entropy)
  { e with count := 1 }

/-- One request of `n` bytes, at most 65,536. -/
def drbgGenerate (d : Drbg) (n : Nat) : Bytes × Drbg :=
  let blocks := ceilDiv n 16
  let out := (drbgBlocks d.key blocks d.v).take n
  let e := drbgUpdate { d with v := (d.v + blocks) % 2 ^ 128 } (zeros 48)
  (out, { e with count := d.count + 1 })

end Sys2Proof.Machine
end

