-- ==== Sys2Proof/Machine/P384.lean ====
section
/-! DEFINITION. The curve P-384 (SP 800-186): public keys as SEC1 points (R126), ECDH (R129, R335), ECDSA verification
(R324, R354, R391), key pairs from seeds (R325), and HPKE mode_auth opening (R129, RFC 9180). -/

namespace Sys2Proof.Machine

/-- The field prime. -/
def ecP : Nat := 2 ^ 384 - 2 ^ 128 - 2 ^ 96 + 2 ^ 32 - 1

/-- The group order. -/
def ecN : Nat :=
  0xFFFFFFFFFFFFFFFFFFFFFFFFFFFFFFFFFFFFFFFFFFFFFFFFC7634D81F4372DDF581A0DB248B0A77AECEC196ACCC52973

/-- The coefficient b; a is -3. -/
def ecB : Nat :=
  0xB3312FA7E23EE7E4988E056BE3F82D19181D9C6EFE8141120314088F5013875AC656398D8A2ED19D2A85C8EDD3EC2AEF

/-- The base point. -/
def ecGx : Nat :=
  0xAA87CA22BE8B05378EB1C71EF320AD746E1D3B628BA79B9859F741E082542A385502F25DBF55296C3A545E3872760AB7
def ecGy : Nat :=
  0x3617DE4A96262C6F5D9E98BF9292DC29F8F41DBD289A147CE9DA3113B5F0B8C00A60B1CE1D7E819D7A431D7C90EA0E5F

/-- Power modulo `m` over the bits of the exponent, most significant first. -/
def powBits (m b : Nat) : List Bool → Nat → Nat
  | [], r => r
  | c :: cs, r => powBits m b cs (if c then r * r % m * b % m else r * r % m)

/-- The low `n` bits of `e`, most significant first. -/
def msbBits (n e : Nat) : List Bool := ((List.range n).map (bit e)).reverse

/-- Inverse modulo a prime below 2^384. -/
def invMod (m a : Nat) : Nat := powBits m (a % m) (msbBits 384 (m - 2)) 1

/-- A point in Jacobian coordinates; z = 0 is the point at infinity. -/
abbrev JPoint := Nat × Nat × Nat

/-- Subtraction in the field. -/
def fsub (a b : Nat) : Nat := (a + ecP - b % ecP) % ecP

/-- Doubling. -/
def ecDouble (q : JPoint) : JPoint :=
  let (x, y, z) := q
  let d := z * z % ecP
  let g := y * y % ecP
  let b := x * g % ecP
  let a := 3 * (fsub x d * ((x + d) % ecP)) % ecP
  let x3 := fsub (a * a) (8 * b)
  (x3, fsub (a * fsub (4 * b) x3) (8 * (g * g % ecP)), fsub (fsub ((y + z) * (y + z)) g) d)

/-- Addition. -/
def ecAdd (q r : JPoint) : JPoint :=
  let (x1, y1, z1) := q
  let (x2, y2, z2) := r
  if z1 = 0 then r else if z2 = 0 then q else
  let zz1 := z1 * z1 % ecP
  let zz2 := z2 * z2 % ecP
  let u1 := x1 * zz2 % ecP
  let u2 := x2 * zz1 % ecP
  let s1 := y1 * (z2 * zz2 % ecP) % ecP
  let s2 := y2 * (z1 * zz1 % ecP) % ecP
  if u1 = u2 then (if s1 = s2 then ecDouble q else (1, 1, 0)) else
  let h := fsub u2 u1
  let hh := h * h % ecP
  let hhh := h * hh % ecP
  let w := fsub s2 s1
  let v := u1 * hh % ecP
  let x3 := fsub (fsub (w * w) hhh) (2 * v)
  (x3, fsub (w * fsub v x3) (s1 * hhh), z1 * z2 % ecP * h % ecP)

/-- Scalar multiplication over bits, most significant first. -/
def ecMulBits (q : JPoint) : List Bool → JPoint → JPoint
  | [], r => r
  | c :: cs, r => let d := ecDouble r; ecMulBits q cs (if c then ecAdd d q else d)

/-- Scalar multiplication. -/
def ecMul (k : Nat) (q : JPoint) : JPoint := ecMulBits q (msbBits 384 k) (1, 1, 0)

/-- Affine coordinates, or none at infinity. -/
def ecAffine (q : JPoint) : Option (Nat × Nat) :=
  let (x, y, z) := q
  if z = 0 then none else
  let i := invMod ecP z
  let ii := i * i % ecP
  some (x * ii % ecP, y * (ii * i % ecP) % ecP)

/-- The point of a 97-byte uncompressed SEC1 string, where it is a valid P-384 point. -/
def ecParse (bs : Bytes) : Option (Nat × Nat) :=
  let x := beNat (slice bs 1 48)
  let y := beNat (slice bs 49 48)
  if bs.length = 97 ∧ byteAt bs 0 = 4 ∧ x < ecP ∧ y < ecP ∧ (y * y) % ecP = fsub (x * x % ecP * x + ecB) (3 * x)
  then some (x, y) else none

/-- The 97-byte uncompressed SEC1 string of a point. -/
def ecEncode (q : Nat × Nat) : Bytes := [4] ++ beBytes 48 q.1 ++ beBytes 48 q.2

/-- The public key of a scalar. -/
def ecPublic (d : Nat) : Bytes :=
  match ecAffine (ecMul d (ecGx, ecGy, 1)) with
  | some q => ecEncode q
  | none => zeros 97

/-- The private scalar of a 56-byte string (R325): reduced modulo n - 1, plus 1. -/
def ecScalar (bs : Bytes) : Nat := beNat bs % (ecN - 1) + 1

/-- The ECDH shared x coordinate. -/
def ecdh (d : Nat) (pub : Bytes) : Option Bytes :=
  match ecParse pub with
  | none => none
  | some q => (ecAffine (ecMul d (q.1, q.2, 1))).map (fun r => beBytes 48 r.1)

/-- ECDSA verification of a 48-byte digest; `sig` is r then s, big-endian. -/
def ecdsaVerify (pub digest sig : Bytes) : Bool :=
  match ecParse pub with
  | none => false
  | some q =>
    let r := beNat (slice sig 0 48)
    let s := beNat (slice sig 48 48)
    if sig.length = 96 ∧ 0 < r ∧ r < ecN ∧ 0 < s ∧ s < ecN then
      let w := invMod ecN s
      let u1 := beNat digest * w % ecN
      let u2 := r * w % ecN
      match ecAffine (ecAdd (ecMul u1 (ecGx, ecGy, 1)) (ecMul u2 (q.1, q.2, 1))) with
      | none => false
      | some v => v.1 % ecN == r
    else false

/-- The ECDSA signature of a 48-byte digest by scalar `d` with nonce `k`: r then s, big-endian. -/
def ecdsaSign (d k : Nat) (digest : Bytes) : Bytes :=
  let r := match ecAffine (ecMul k (ecGx, ecGy, 1)) with
    | some q => q.1 % ecN
    | none => 0
  beBytes 48 r ++ beBytes 48 (invMod ecN k * (beNat digest + r * d) % ecN)

/-! ## HPKE mode_auth, DHKEM(P-384, HKDF-SHA384), HKDF-SHA384, AES-256-GCM (R129) -/

/-- LabeledExtract of RFC 9180. -/
def hpkeExtract (suite salt : Bytes) (label : String) (ikm : Bytes) : Bytes :=
  hkdfExtract salt (ascii "HPKE-v1" ++ suite ++ ascii label ++ ikm)

/-- LabeledExpand of RFC 9180. -/
def hpkeExpand (suite prk : Bytes) (label : String) (info : Bytes) (len : Nat) : Bytes :=
  hkdfExpand prk (beBytes 2 len ++ ascii "HPKE-v1" ++ suite ++ ascii label ++ info) len

/-- AuthDecap and the key schedule: the AEAD key and base nonce. -/
def hpkeKeys (skR : Nat) (pkR pkS enc info : Bytes) : Option (Bytes × Bytes) :=
  match ecdh skR enc, ecdh skR pkS with
  | some d1, some d2 =>
    let kem : Bytes := ascii "KEM" ++ beBytes 2 0x0011
    let ss := hpkeExpand kem (hpkeExtract kem [] "eae_prk" (d1 ++ d2)) "shared_secret" (enc ++ pkR ++ pkS) 48
    let suite : Bytes := ascii "HPKE" ++ beBytes 2 0x0011 ++ beBytes 2 0x0002 ++ beBytes 2 0x0002
    let ctx : Bytes := [0x02] ++ hpkeExtract suite [] "psk_id_hash" [] ++ hpkeExtract suite [] "info_hash" info
    let sec := hpkeExtract suite ss "secret" []
    some (hpkeExpand suite sec "key" ctx 32, hpkeExpand suite sec "base_nonce" ctx 12)
  | _, _ => none

/-- Opens a single HPKE message with empty associated data; the last 16 bytes of `ct` are the tag. -/
def hpkeOpen (skR : Nat) (pkR pkS enc info ct : Bytes) : Option Bytes :=
  match hpkeKeys skR pkR pkS enc info with
  | none => none
  | some (k, n) => gcmOpen k n [] (ct.take (ct.length - 16)) (ct.drop (ct.length - 16))

end Sys2Proof.Machine
end

