-- ==== Sys2Proof/Machine/State.lean ====
section
/-! DEFINITION. The state of the MX-60 as plain data: every register, queue, buffer, table, counter, mode and pin that
the spec names (INVENTORY.md lists each with its rule), the queue of waiting commands, the reasons a step can stop, and
the state after a module reset. -/

namespace Sys2Proof.Machine

/-! ## What leaves the module -/

/-- What the module puts on its outside interfaces (notes/assumptions/5.md). -/
inductive Output where
  /-- a write to host memory by a function: DMA data, completion and event records -/
  | hostWrite (fn addr : Nat) (data : Bytes)
  /-- an MSI-X vector of a function (R261) -/
  | msix (fn vec : Nat)
  /-- the data of a register read of `width` bits -/
  | readData (fn off width : Nat) (v : Nat)
  /-- a request completed with Unsupported Request (R271) -/
  | unsupported (fn : Nat)
  /-- a PXT packet, with its UDP source port (R277) -/
  | packet (srcPort : Nat) (pkt : Packet)
  /-- a PTP Delay_Req at a port (R305) -/
  | delayReq (port : Nat)
  /-- an SPDM response or a vendor-defined response body (R335, R338) -/
  | spdm (carrier : Carrier) (code : Nat) (body : Bytes)
  /-- an answer on the management link (R390, R391) -/
  | mgmt (status : Nat) (body : Bytes)
deriving DecidableEq, Repr

/-! ## Records -/

/-- A completion record before it is placed in a ring (R259): SQ_HEAD, PHASE and HELD are set when it is written. -/
structure CplRec where
  tag    : Nat
  status : Nat
  opcode : Nat
  idx    : Nat
  detail : Bytes
  stamp  : Nat
  held   : Bool
  op     : Option Nat
deriving DecidableEq, Repr

/-- An event record before it is placed in a ring (R397); `part` is 0xFF for none. -/
structure EvRec where
  source : Nat
  code   : Nat
  seq    : Nat
  stamp  : Nat
  part   : Nat
  detail : Bytes
deriving DecidableEq, Repr

/-- A statistics counter (R403, R404). -/
structure Counter where
  count : Nat
  ovf   : Bool
deriving DecidableEq, Repr

/-! ## Descriptors in progress -/

/-- Where a descriptor came from: a ring slot, a control window, a DISPATCH mark, a fired trigger. -/
inductive Origin where
  | ring | control | mark | trigger
deriving DecidableEq, Repr

/-- The scheduler token a descriptor holds (R256). -/
inductive Tok where
  | none | own | pool
deriving DecidableEq, Repr

/-- `ready`: dispatched, its own step has not run. `running`: its step ran and it waits for its end. `done`: completed,
its record waiting for space (R255, R268). -/
inductive OpPhase where
  | ready | running | done
deriving DecidableEq, Repr

/-- A dispatched descriptor or committed control command. `det` is GLB_CTL.DETERMINISTIC when it was issued (R20). -/
structure Op where
  fn     : Nat
  idx    : Nat
  bytes  : Bytes
  origin : Origin
  tok    : Tok
  det    : Bool
  phase  : OpPhase
  status : Nat
  detail : Bytes
  aux    : Nat
deriving DecidableEq, Repr

/-- A descriptor fetched ahead of dispatch. `src` is `ring`, with its ring index in `idx`, or `trigger` for a fired stored
descriptor (R298), with the ring descriptors not yet fetched that go before it, or `mark` for a DISPATCH mark's. `err` is the status of a
stored descriptor that could not be read, else 0. -/
structure Fetched where
  idx   : Nat
  bytes : Bytes
  src   : Origin
  err   : Nat
deriving DecidableEq, Repr

/-! ## Host interface -/

/-- HIF_STAT.RINGS (R272). -/
inductive Rings where
  | disabled | active | detached | deleting
deriving DecidableEq, Repr

/-- HIF_STAT.TDISP (R272). -/
inductive Tdi where
  | unlocked | locked | run | error
deriving DecidableEq, Repr

/-- The ring set-up of one function and its indices (R254, R255). -/
structure RingSet where
  sqLog  : Nat
  cqLog  : Nat
  eqLog  : Nat
  sqBase : Nat
  cqBase : Nat
  eqBase : Nat
  sqTail : Nat
  sqHead : Nat
  cqHead : Nat
  cqProd : Nat
  cqPass : Bool
  eqHead : Nat
  eqProd : Nat
  eqPass : Bool
  coN    : Nat
  coUs   : Nat
deriving DecidableEq, Repr

/-- The control window and the reset-held area (R252, R253, R270). -/
structure CmdWin where
  words        : Tbl Word
  busy         : Bool
  lost         : Bool
  opcode       : Nat
  result       : Bytes
  heldRec      : Bytes
  heldValid    : Bool
  heldReplaced : Bool
  toHeld       : Bool
deriving DecidableEq, Repr

/-- One function of the host interface (R247 to R272). `ingIrq`: ING_ISTAT flags whose interrupt arose while detached. `lost`: a cause of driver loss met its rings while DELETING. -/
structure HifFn where
  win    : CmdWin
  rings  : Rings
  cause  : Nat
  tdi    : Tdi
  rs     : RingSet
  hbMs   : Nat
  hbVal  : Word
  hbFrom : Nat
  unsig  : Nat
  unsigAt : Nat
  ev1At  : Option Nat
  ev1Pend : Bool
  ingIrq : Nat
  fetched : List Fetched
  heldC  : List CplRec
  heldE  : List EvRec
  stuck  : List CplRec
  waitC  : List CplRec
  hiLatch : Tbl Word
  loStage : Tbl Word
  lost   : Bool
deriving DecidableEq, Repr

/-! ## Partitions -/

/-- One entry of the layout in force (R317): what the partition holds, units in partition-unit order. -/
structure PartCfg where
  pairs   : Nat
  grus    : Nat
  scratch : Nat
  tierA   : List Nat
  tierB   : List Nat
  tierC   : List Nat
deriving DecidableEq, Repr

/-- One partition (R317 to R320, R340, R349). -/
structure Part where
  cfg      : PartCfg
  stop     : Bool
  blanking : Bool
  drbg     : Option Drbg
  log      : List Bytes
  chain    : Bytes
deriving DecidableEq, Repr

/-! ## Rounds -/

/-- The round states of R102, in code order. -/
inductive RState where
  | idle | created | opened | closed | completing | sealed | unmasking | ready | released | aborted
deriving DecidableEq, Repr

/-- The sealed policy (R97). -/
structure Policy where
  tag       : Nat
  ring64    : Bool
  errB      : Nat
  committee : Nat
  threshold : Nat
  lambda    : Nat
  slots     : Nat
  minCohort : Nat
  vlen      : Nat
  sigma     : Nat
  tAdmit    : Nat
  tComplete : Nat
  tSeal     : Nat
  tRelease  : Nat
  digest    : Bytes
deriving DecidableEq, Repr

/-- A staged share-sum (R132): its member, its descriptor and the checked header. -/
structure Staged where
  member : Nat
  op     : Nat
  header : Bytes
deriving DecidableEq, Repr

/-- How far the unmasking of a round has come (R110, R138): block rounds of the expansion still to issue to each Panel. -/
inductive Unmask where
  | none | expanding | noise | done
deriving DecidableEq, Repr

/-- One round slot (R95 to R120, R131 to R137). `wasOpen`: it has reached OPEN (R120). `scrub`: the background scrub of its
abort has not run yet (R115). `ahead`: the first ticket that its expansion runs ahead of (R15). -/
structure Round where
  st       : RState
  wasOpen  : Bool
  scrub    : Bool
  cause    : Nat
  freeing  : Bool
  openOp   : Option Nat
  freeOp   : Option Nat
  policy   : Bytes
  pol      : Policy
  accBase  : Nat
  mapBase  : Nat
  cohort   : Nat
  incomplete : Nat
  accepted : Nat
  rejected : Nat
  digest   : Bytes
  mseed    : Bytes
  pub      : Bytes
  roster   : Option Bytes
  staged   : List Staged
  collOpen : Bool
  thrAt    : Option Nat
  wants    : Bool
  draining : Bool
  seed     : List Nat
  unmask   : Unmask
  blocks   : List Nat
  ahead    : Nat
  stalled  : Bool
deriving DecidableEq, Repr

/-! ## Ingest -/

/-- A record placed whole in the ingest queue (R145): the stamp of its first frame, its buffers in order, its length. -/
structure PlacedRec where
  stamp : Nat
  bufs  : List Nat
  len   : Nat
deriving DecidableEq, Repr

/-- The record check unit of one partition (R158 to R163). -/
structure Ingest where
  cut      : Nat
  istat    : Nat
  ien      : Word
  first0   : Word
  first1   : Word
  first2   : Word
  first3   : Word
  queue    : List PlacedRec
deriving DecidableEq, Repr

/-! ## Seam units -/

/-- Where a region stands (R89, R90). -/
inductive RegionPhase where
  | opened | closed | finalising | releasing
deriving DecidableEq, Repr

/-- One addend in exact form (R84 to R86): an integer (in units of 2^-149 for FX320), the status flags that it brings
([63:58] as bits 5 to 0) and the addends it counts for. -/
structure Addend where
  val   : Int
  flags : Nat
  count : Nat
deriving DecidableEq, Repr

/-- A Seam region of a partition (R84, R89). `defNo` numbers the definition in force; `op` is the descriptor that waits
for its end, `clearOp` the one that waits for its zeroing; `waiting` lists the addends that reached it while `clearing`:
transfer, element, addend. -/
structure Region where
  tier     : Nat
  base     : Nat
  elems    : Nat
  kind     : Nat
  kTotal   : Nat
  phase    : RegionPhase
  clearing : Bool
  defNo    : Nat
  op       : Option Nat
  clearOp  : Option Nat
  waiting  : List (Nat × Nat × Addend)
deriving DecidableEq, Repr

/-- Who sent a transfer of addends (R91). -/
inductive XferSrc where
  | panel (panel word : Nat)
  | host (op : Nat)
  | pxt (entry : Nat)
  | record (round : Nat)
  | expand (round : Nat)
  | noise (round : Nat)
deriving DecidableEq, Repr

/-- What a transfer adds into: a definition of a region with its tier, base and kind, or the accumulator of a round. -/
inductive XferDst where
  | region (p region defNo tier base kind : Nat)
  | acc (round : Nat)
deriving DecidableEq, Repr

/-- A transfer: addends that have not reached their Seam unit, each with its element. `held` counts those that wait at a
clearing region, `done` those committed, `late` is set at the first one discarded (R91), `failed` lists elements whose
addend was not committed, each with whether it was discarded as late, `status` the statuses met. -/
structure Xfer where
  src    : XferSrc
  dst    : XferDst
  rest   : List (Nat × Addend)
  held   : Nat
  done   : Nat
  late   : Bool
  failed : List (Nat × Bool)
  status : List Nat
deriving DecidableEq, Repr

/-! ## Panels -/

/-- An operand matrix of a pass: rows of element codes along K, and the E8M0 scale bytes of each row (R36, R48, R58). -/
structure Operand where
  fmta   : Nat
  klen   : Nat
  rows   : List (List Nat)
  scales : List (List Nat)
deriving DecidableEq, Repr

/-- An activation set of the Panel's arrays (R48, R49, R58): sample n of array j is row j x NC + c of `mat`. -/
structure ActSet where
  mat   : Operand
  narr  : Nat
  ncol  : Nat
  deep  : Nat
  ready : Bool
deriving DecidableEq, Repr

/-- A weight stream set up by STREAM_W (R58, R60); `blocks` lists, for the Loom, the row block dealt to each logical
array of the Panel (R138); `pages` lists the scratch pages that it streams from, which stay in the store while its PASS
runs (R52). -/
structure Stream where
  mat    : Operand
  msel   : Nat
  loom   : Bool
  kchunk : Nat
  blocks : List (Nat × Nat)
  pages  : List Nat
deriving DecidableEq, Repr

/-- A pass issued and not yet promoted (R60): the set it reads, its operands, and whether its last lane value has left
the arrays (R50). -/
structure PassRec where
  set    : Nat
  tile   : Nat
  act    : ActSet
  stream : Stream
  done   : Bool
  word   : Nat
deriving DecidableEq, Repr

/-- The format of a tile (R82): operand formats, entry kind, 4-bit mode, MSEL. -/
structure TileFmt where
  fmtA  : Nat
  fmtW  : Nat
  ent   : Nat
  msel  : Nat
  four  : Bool
deriving DecidableEq, Repr

/-- A tile in progress (R66, R76): entries by sample and row in the layout of R76, bit 64 of the code of a compensated pair
set when it holds the special value of a NaN or infinite lane (R77); the EPILOGUE results as element codes
by sample with their format and scale bytes; whether they have the form of R93; flags of R78; the K counted for R81. -/
structure Tile where
  slot    : Nat
  nslots  : Nat
  fmt     : TileFmt
  entries : List (List Nat)
  results : List (List Nat)
  scales  : List (List Nat)
  resFmta : Nat
  resDone : Bool
  plain   : Bool
  sat     : Bool
  inexact : Bool
  k       : Nat
  ending  : Bool
deriving DecidableEq, Repr

/-- A tile command in flight (R64): its opcode, word index, activation set or tile slots, the scratch pages it uses. -/
structure InFlight where
  opc   : Nat
  word  : Nat
  key   : Nat
  pages : List Nat
deriving DecidableEq, Repr

/-- One sweep of a mask expansion on a Panel: its round, the row block dealt to each logical array (R138), and the first
ticket that the expansion is ahead of (R15). -/
structure Sweep where
  round  : Nat
  blocks : List (Nat × Nat)
  ahead  : Nat
deriving DecidableEq, Repr

/-- A resident data page of the Panel store (R51, R52). -/
structure StorePage where
  page  : Nat
  dirty : Bool
deriving DecidableEq, Repr

/-- One Panel (R48 to R70). `streams` holds the streams that no PASS has consumed, the most recent first (R60). `pages` is in least recently used order, oldest first; `touched` lists the pages already
fetched for the stalled command. `pass` is the tile of the PASS directly before the command at `pc`. `stopped` holds the
status and word index of a stop (R65), `note` the statuses of errors met. `unsynced` lists 64-byte blocks with the
contents that a STORE replaced, since the last SYNC with WAIT bit 1 (R64). -/
structure Panel where
  health   : Nat
  remapped : Nat
  orphan   : Nat
  run      : Option Nat
  prog     : List DWord
  pc       : Nat
  bases    : List Nat
  set0     : ActSet
  set1     : ActSet
  streams  : List Stream
  passes   : List PassRec
  pass     : Option Nat
  tiles    : List Tile
  inflight : List InFlight
  store    : Mem
  pages    : List StorePage
  stall    : Option Nat
  touched  : List Nat
  unsynced : List (Nat × Nat × Bytes)
  barriers : Nat
  atBarrier : Bool
  stopped  : Option (Nat × Nat)
  ended    : Bool
  note     : List Nat
  sat      : Bool
  inexact  : Bool
  sweeps   : List Sweep
deriving DecidableEq, Repr

/-! ## Loom, combiner -/

/-- The Matrix Loom (R139, R140, R144). -/
structure Loom where
  round   : Nat
  busy    : Bool
  stalled : Bool
  words   : Nat
  failed  : Bool
deriving DecidableEq, Repr

/-- The share combiner (R134, R144). -/
structure Combiner where
  round  : Nat
  busy   : Bool
  opened : Nat
deriving DecidableEq, Repr

/-! ## Gate Refresh Units -/

/-- One GRU (R189): its batch is a list of gates with its slot count. -/
structure Gru where
  offline : Bool
  param   : Nat
  batch   : List Nat
  slots   : Nat
deriving DecidableEq, Repr

/-- A registered key set (R170). -/
structure KeySet where
  param : Nat
  tier  : Nat
  base  : Nat
  len   : Nat
deriving DecidableEq, Repr

/-- A registered gate program (R181). -/
structure GateProg where
  slot   : Nat
  tier   : Nat
  base   : Nat
  len    : Nat
  param  : Nat
  nin    : Nat
  nconst : Nat
  ngate  : Nat
  nout   : Nat
  digest : Bytes
deriving DecidableEq, Repr

/-- A GRU_RUN in progress in a partition (R182, R183): decrypted constants of the GRU SRAM, finished gates, bootstraps. -/
structure GruRun where
  op     : Nat
  prog   : Nat
  keyset : Nat
  flood  : Bool
  consts : List Bool
  done   : List Nat
  boots  : Nat
deriving DecidableEq, Repr

/-! ## Tiers A and B -/

/-- The error latch of a function (R211, R213). -/
structure ErrLatch where
  valid  : Bool
  tier   : Nat
  part   : Nat
  status : Nat
  addr   : Nat
deriving DecidableEq, Repr

/-- The controllers of tiers A and B beside their contents (R197 to R213). Lines and rows are numbered by tier x 2^50 +
physical address / 64, group x 2^40 + row. `written` holds spans of lines whose check field a write has set; a line in none
is blank (R197). `upset` lists lines in which an error lies that no read has met yet; `stuck` those poisoned for good
(R205). -/
structure MemCtl where
  written  : List (Nat × Nat)
  upset    : Tbl ErrClass
  poison   : List Nat
  stuck    : List Nat
  retired  : List Nat
  spares   : Tbl Nat
  defective : List Nat
  patrolA  : Nat
  patrolB  : Nat
  busy     : Bool
  kind     : Nat
  errPf    : ErrLatch
  errVf    : Tbl ErrLatch
deriving DecidableEq, Repr

/-! ## Tier C -/

/-- The entry of a logical block of 4 KiB in the mapping tables (R220, R228, R243): the page that holds it, which of the page's
four codewords, whether it is lost or TORN. -/
structure LBlock where
  page : Nat
  idx  : Nat
  lost : Bool
  torn : Bool
deriving DecidableEq, Repr

/-- What a page of NAND holds (R216, R218, R232): up to four logical blocks, each as its number, its data key and its
plaintext; a page of a checkpoint log, as partition, SEQ, data key and plaintext; or bytes as they are stored. -/
inductive PageBody where
  | blocks (lbs : List (Nat × Bytes × Bytes))
  | log (p seq : Nat) (key data : Bytes)
  | bytes (data : Bytes)
deriving DecidableEq, Repr

/-- A programmed page: its 16 KiB, its footer (R233; empty where it has none), and whether it no longer decodes. -/
structure NPage where
  body   : PageBody
  footer : Bytes
  bad    : Bool
deriving DecidableEq, Repr

/-- A stripe block: one block on every die of a parity group that took writes when it was opened (R217, R230). Stripes
below `next` have their parity page; `stripe` lists the dies of the stripe being filled. `region`: 0 user data in TLC, 1 the
checkpoint logs, 2 the system region, both in pSLC (R215). -/
structure SBlock where
  region : Nat
  group  : Nat
  blks   : Tbl Nat
  next   : Nat
  stripe : List Nat
  opened : Bool
deriving DecidableEq, Repr

/-- One die (R229, R230). -/
structure Die where
  spares   : Nat
  readOnly : Bool
  gone     : Bool
deriving DecidableEq, Repr

/-- Where a staged page goes. -/
inductive PageDest where
  /-- logical blocks, to the user region -/
  | user
  /-- page `page` of generation `gen` of a log -/
  | log (p gen page : Nat)
  /-- the same page of a block that has moved to another block of its die (R225 to R227) -/
  | back (page : Nat)
  /-- from a page of a die that is gone, to a place of the controller's choosing (R229) -/
  | moved (page : Nat)
  /-- a part of a piece of slot B, from byte `off`, of `parts` parts in the piece; `no` is the staging it belongs to (R361) -/
  | piece (no off parts : Nat)
deriving DecidableEq, Repr

/-- A page in write staging (R237). -/
structure StagedPage where
  dest   : PageDest
  body   : PageBody
  footer : Bytes
deriving DecidableEq, Repr

/-- An extent: at most 16 MiB (R239). `pages` are those not yet programmed and verified, `progs` counts the others. -/
structure Extent where
  op      : Option Nat
  part    : Option Nat
  system  : Bool
  size    : Nat
  started : Bool
  pages   : List StagedPage
  progs   : Nat
deriving DecidableEq, Repr

/-- A checkpoint generation (R232, R234): extents as tier, partition address, length; the data key; the SEQ of its list page;
how many data pages it has, the list page among them; the pages programmed, by PAGE. -/
structure Gen where
  gen      : Nat
  tag      : Nat
  extents  : List (Nat × Nat × Nat)
  key      : Bytes
  seq      : Nat
  count    : Nat
  pages    : Tbl Nat
deriving DecidableEq, Repr

/-- A page of the dump area (R233, R240): its SEQ, its index in the dump, what it holds and its destination, its footer. -/
structure DumpPage where
  seq    : Nat
  idx    : Nat
  staged : StagedPage
  footer : Bytes
  bad    : Bool
deriving DecidableEq, Repr

/-- The flash controller (R214 to R246). `media` holds the wraps of the media keys (R218); `freeBlks` the blocks that wait
for their erasure. `dumpList` is the destinations that the dump commit page lists, none where the dump ended without it;
`dumpSeq` and `dumpNo` never start again (R233). -/
structure Flash where
  st       : Nat
  dumpInc  : Bool
  torn     : Nat
  patrol   : Nat
  budget   : Nat
  energy   : Nat
  short    : Bool
  waitFrom : Option Nat
  wp       : Bool
  lblocks  : Tbl LBlock
  dies     : Tbl Die
  erases   : Tbl Nat
  badBlks  : List Nat
  freeBlks : List Nat
  sblks    : Tbl SBlock
  nextSb   : Nat
  pages    : Tbl NPage
  writeNo  : Nat
  extents  : Tbl Extent
  nextExt  : Nat
  ckpts    : Tbl (List Gen)
  nextGen  : Tbl Nat
  ckptSeq  : Tbl Nat
  media    : Tbl Bytes
  dump     : List DumpPage
  dumpList : Option (List PageDest)
  dumpSeq  : Nat
  dumpNo   : Nat
deriving DecidableEq, Repr

/-! ## Fabric -/

/-- One port (R303). -/
structure Port where
  up    : Bool
  downs : Nat
deriving DecidableEq, Repr

/-- A bound job (R274, R276). -/
structure Job where
  part  : Nat
  slot  : Nat
  txSeq : Nat
deriving DecidableEq, Repr

/-- A peer table entry (R274, R294). -/
structure Peer where
  addr : BitVec 128
  part : Nat
  job  : Nat
  err  : Bool
deriving DecidableEq, Repr

/-- A receive queue (R285). -/
structure RxQueue where
  log     : Nat
  count   : Nat
  tier    : Nat
  base    : Nat
  free    : List Nat
  counter : Nat
  delOp   : Option Nat
deriving DecidableEq, Repr

/-- A window (R288, R291). -/
structure Window where
  wgen    : Nat
  live    : Bool
  tier    : Nat
  base    : Nat
  len     : Nat
  perm    : Nat
  peer    : Nat
  counter : Nat
  region  : Nat
  form    : Nat
  revoke  : Option Nat
deriving DecidableEq, Repr

/-- The state of a receive entry (R283). -/
inductive RxState where
  | opened | complete | abandoned
deriving DecidableEq, Repr

/-- A receive entry (R283): a message arriving. `got` lists packets received, `bufs` the k-th buffers, `ack` the packets
still to acknowledge, each with its TX_TIME, `data` the packets of a Seam window message, `unit` its addend size (R289) and
`dst` the definition of its region at its admission (R89); `late` is set once an addend of it was discarded (R91). `drop` is
1 when a flush, 2 when a queue reset met a record being placed (R160, R161). A `gone` entry is freed or superseded: no packet
meets it, and it is held only until the last addend of its message is decided (R294). -/
structure RxEntry where
  src    : BitVec 128
  srcPart : Nat
  job    : Nat
  msgId  : Nat
  part   : Nat
  typ    : Nat
  gen    : Nat
  len    : Nat
  st     : RxState
  got    : List Nat
  queue  : Nat
  bufs   : Tbl Nat
  stamp  : Nat
  window : Nat
  wgen   : Nat
  off    : Nat
  expire : Nat
  last   : Nat
  drop   : Nat
  port   : Nat
  data   : Tbl Bytes
  unit   : Nat
  dst    : Option XferDst
  late   : Bool
  ack    : List (Nat × Nat)
  gone   : Bool
deriving DecidableEq, Repr

/-- What an initiated message is. -/
inductive MsgKind where
  | send | write | readReq | readResp | flush | error
deriving DecidableEq, Repr

/-- A message this module initiates (R281, R282, R293). `unsent`, `unacked`: packet indices; `ctx` its congestion
context, none while it waits for one; `code` the CODE of an ERROR, else the status that its accesses to memory leave it;
`echo` the TX_TIME of the READ_REQ that a response answers. -/
structure Msg where
  op      : Option Nat
  kind    : MsgKind
  part    : Nat
  dst     : BitVec 128
  dstPart : Nat
  job     : Nat
  msgId   : Nat
  gen     : Nat
  len     : Nat
  window  : Nat
  queue   : Nat
  aux     : Nat
  tier    : Nat
  src     : Nat
  code    : Nat
  unsent  : List Nat
  unacked : List (Nat × Nat)
  started : Bool
  rnrUs   : Nat
  rnrWait : Bool
  ctx     : Option Nat
  last    : Nat
  ccWait  : Option Nat
  peer    : Nat
  echo    : Nat
deriving DecidableEq, Repr

/-- A congestion context (R296), times in ns. -/
structure CcCtx where
  addr    : BitVec 128
  part    : Nat
  base    : Nat
  srtt    : Nat
  cwnd    : Nat
  flight  : Nat
  lastCut : Nat
  used    : Nat
deriving DecidableEq, Repr

/-- An armed stored descriptor (R298); `seq` is the ticket of its FAB_TRIGGER_ARM. -/
structure Armed where
  part    : Nat
  counter : Nat
  thr     : Nat
  tier    : Nat
  addr    : Nat
  seq     : Nat
deriving DecidableEq, Repr

/-- A FLUSH at the target that waits for placement (R295): `before` lists the transfers that it waits for. -/
structure FlushWait where
  src   : BitVec 128
  srcPart : Nat
  job   : Nat
  part  : Nat
  msgId : Nat
  gen   : Nat
  before : List Nat
  port  : Nat
deriving DecidableEq, Repr

/-- The fabric interface (R273 to R303). `jobSeqs`: SHA-384 of the last key of a job that is no longer bound and its next
TX_SEQ, so that a re-bind with the same key repeats no nonce (R276). -/
structure Fab where
  udpPort  : Nat
  timeout  : Nat
  rnr      : Nat
  beta     : Nat
  aiKib    : Nat
  target   : Nat
  addr     : Tbl Word
  ports    : Tbl Port
  jobs     : Tbl Job
  jobSeqs  : Tbl (Bytes × Nat)
  peers    : Tbl Peer
  queues   : Tbl RxQueue
  windows  : Tbl Window
  rx       : Tbl RxEntry
  nextRx   : Nat
  msgs     : Tbl Msg
  nextMsg  : Nat
  idGen    : Tbl Nat
  idFree   : List Nat
  ctxs     : Tbl CcCtx
  ctxTick  : Nat
  trig     : Tbl Nat
  armed    : List Armed
  fails    : List (BitVec 128 × Nat × Nat)
  authAt   : Tbl Nat
  flushes  : Tbl FlushWait
  nextFl   : Nat
  unbinds  : List (Nat × Nat)
  downAt   : Nat
deriving DecidableEq, Repr

/-! ## The Meridian and the Graticule -/

/-- The listed states of an entry (R311). -/
inductive MarkSt where
  | set | arming | armed | applied | reserved
deriving DecidableEq, Repr

/-- A Graticule entry (R309 to R315). `failed` lists the participants that a LASTING error keeps from being ARMED (R314);
`oldVal` and `oldLay` hold what a rollback restores. -/
structure Mark where
  time   : Nat
  action : Nat
  part   : Nat
  slot   : Nat
  tag    : Nat
  st     : MarkSt
  seq    : Nat
  desc   : Nat
  item   : Nat
  value  : Nat
  layout : Bytes
  armed  : List Nat
  failed : List Nat
  partner : Option Nat
  fallback : Bool
  oldVal : Nat
  oldLay : Bytes
deriving DecidableEq, Repr

/-- A PTP port that announces itself (R305): the module port that it reaches, its identity, its dataset, the time of its last
Announce and of the one before. -/
structure Foreign where
  from_  : PtpPort
  data   : PtpData
  heard  : Nat
  before : Option Nat
deriving DecidableEq, Repr

/-- The Meridian beside its count (R304 to R308, R380). `slew` is the correction still to make, `slewAt` the nanoseconds since
its last one. -/
structure Mrd where
  domain  : Nat
  ports   : Nat
  profile : Nat
  source  : Nat
  st      : Nat
  port    : Nat
  stepped : Bool
  offset  : Int
  inBand  : Nat
  outBand : Nat
  large   : Bool
  slew    : Int
  slewAt  : Nat
  master  : Option PtpPort
  foreign : List Foreign
  syncT1  : Option Nat
  syncT2  : Nat
  delayT3 : Nat
  delay   : Int
  announceAt : Nat
  ppsAt   : Option Nat
  ppsOut  : Bool
  marks   : Tbl Mark
  nextSeq : Nat
deriving DecidableEq, Repr

/-! ## Security -/

/-- The fused lifecycle states (R3). -/
inductive Fused where
  | factory | deployed | retired
deriving DecidableEq, Repr

/-- A key slot (R326, R352). -/
structure KeySlot where
  valid   : Bool
  key     : Bytes
  origin  : Nat
  life    : Nat
  meas    : Bool
  noExp   : Bool
  anyPart : Bool
  part    : Nat
  engine  : Nat
  sid     : Nat
deriving DecidableEq, Repr

/-- An SPDM session (R335 to R337). `secret` is what ECDHE gave both ends at KEY_EXCHANGE; `keyNo` counts KEY_UPDATEs. -/
structure Session where
  sid     : Nat
  carrier : Carrier
  secured : Bool
  tenant  : Bool
  keyNo   : Nat
  hbAt    : Nat
  secret  : Bytes
deriving DecidableEq, Repr

/-- A sealed weight range (R333). -/
structure Weight where
  tier   : Nat
  base   : Nat
  len    : Nat
  digest : Bytes
deriving DecidableEq, Repr

/-- The Thimble's state (R3, R323 to R352). `ide`: by stream, substream and direction, the session that programmed a key
and the key (R326). `masks`: what slots are stored XOR, from `maskDrbg` (R326, R349). `held`: the latch was set when this
boot began (R3). `bootAt`: when the ROM booted (R349). `devPub`, `certs`: the DeviceID public key, and the two
certificates that the chain of this boot adds to it (R325). -/
structure Sec where
  fused    : Fused
  latch    : Bool
  cause    : Nat
  setId    : Nat
  epoch    : Nat
  tenantId : Option Bytes
  pending  : Bool
  switchRun : Bool
  retiring : Bool
  udsFused : Bool
  slots    : Tbl KeySlot
  masks    : Bytes
  maskDrbg : Option Drbg
  held     : Bool
  bootAt   : Nat
  ide      : Tbl (Nat × Bytes)
  sessions : List Session
  dbgWin   : Nat
  opKey    : Option Bytes
  seqFloor : Nat
  weights  : Tbl Weight
  cdi1     : Bytes
  cdi2     : Bytes
  m1       : Bytes
  m2       : Bytes
  devPub   : Bytes
  certs    : Bytes
deriving DecidableEq, Repr

/-- The random number source (R346 to R352). `running` lists the jitter sources that run; `fails` numbers the failing
blocks of the last 1,024; `startFails` counts those of this boot until the start-up test has ended. -/
structure Rng where
  empty    : Bool
  alarm    : Bool
  tap      : Bool
  inject   : Bool
  tapSrc   : Nat
  running  : List Nat
  fails    : List Nat
  startFails : Nat
  blocks   : Nat
  fifo     : List Nat
  injected : Bytes
  stopped  : Bool
  passed   : Bool
deriving DecidableEq, Repr

/-! ## Firmware -/

/-- A crash dump (R369): `no` numbers its bytes, `manifest` is the digest of the manifest that ran. -/
structure Dump where
  cause : Nat
  core  : Nat
  time  : Nat
  no    : Nat
  manifest : Bytes
deriving DecidableEq, Repr

/-- Firmware slots, loading and dumps (R353 to R371). `capture` is a capture in progress: its cause, core, descriptor;
`coreAt` the time of a core's last LASTING fault. `slotA` holds what slot A has been copied, none as shipped; `bootOk`: the
other boot parts of the image that boots have verified (R357). -/
structure Fw where
  load     : Nat
  image    : Nat
  slotB    : Nat
  pieces   : List Nat
  parts    : List Nat
  stageNo  : Nat
  manA     : Bytes
  slotA    : Option Mem
  bootOk   : Bool
  manB     : Bytes
  bytesB   : Mem
  refused  : Bool
  running  : Nat
  floor    : Nat
  cfgFmt   : Nat
  mboxLo   : Word
  mboxHi   : Word
  offered  : Bool
  waitFrom : Nat
  dump     : Option Dump
  capture  : Option (Nat × Nat × Option Nat)
  dumpNo   : Nat
  resetDue : Bool
  coreAt   : Tbl Nat
deriving DecidableEq, Repr

/-! ## Power -/

/-- The phases of R376. -/
inductive Phase where
  | auxOnly | sequence | run | holdup | offHeld
deriving DecidableEq, Repr

/-- A hold-up dump in progress (R240, R382): its start, the energy then, whether the bank feeds it. -/
structure HoldDump where
  t0       : Nat
  energy   : Nat
  fromBank : Bool
deriving DecidableEq, Repr

/-- The power core, the pins and the thermal control (R372 to R393). `selfRst`: the dump in progress ends in a start by the
module itself. `rstRel`: MOD_RESET_N was released while the dump ran. `stepAt`: the start event, or main-good. `aux54`: the AUX domain
runs from the 54 V input. `thrFrom`: since when the ceiling has been below the ARRAY_CLOCK item. `tripHold`: a thermal trip
that has not cleared. -/
structure Pwr where
  phase    : Phase
  reset    : Nat
  bank     : Nat
  cMeas    : Nat
  bankMv   : Nat
  testing  : Bool
  charger  : Bool
  tripped  : Bool
  tripHold : Bool
  lastStart : Nat
  clock    : Nat
  ceiling  : Nat
  alert    : Bool
  boot     : Nat
  slotId   : Nat
  lc       : Nat
  rom      : Bool
  latched  : Bool
  mainOk   : Bool
  inlet    : Nat
  junction : Nat
  aux12    : Bool
  aux54    : Bool
  v54      : Bool
  rstLow   : Option Nat
  perst    : Bool
  dump     : Option HoldDump
  dwell    : Option Nat
  dumpDone : Bool
  keysClr  : Bool
  selfRst  : Bool
  rstRel   : Bool
  stepAt   : Nat
  thrFrom  : Option Nat
deriving DecidableEq, Repr

/-! ## Global -/

/-- GLB_CTL and GLB_DET_STAT (R20, R21). -/
structure Glb where
  det   : Bool
  detPf : Nat
  detVf : Tbl Nat
  tib   : Nat
  step  : Nat
deriving DecidableEq, Repr

/-! ## The whole -/

/-- The state of the module. `free` counts the open values taken (notes/assumptions/6.md), `now` is the Meridian in
nanoseconds (R304). -/
structure State where
  pending : List Instr
  out     : List Output
  free    : Nat
  now     : Nat
  glb     : Glb
  evSeq   : Tbl Nat
  cntMod  : Tbl Counter
  cntPart : Tbl Counter
  hif     : Tbl HifFn
  ops     : Tbl Op
  nextOp  : Nat
  parts   : Tbl Part
  layout  : Bytes
  panels  : Tbl Panel
  regions : Tbl Region
  nextDef : Nat
  xfers   : Tbl Xfer
  nextX   : Nat
  rounds  : Tbl Round
  ingest  : Tbl Ingest
  loom    : Loom
  shc     : Combiner
  grus    : Tbl Gru
  keysets : Tbl KeySet
  progs   : Tbl GateProg
  gruRuns : Tbl GruRun
  tierA   : Mem
  tierB   : Mem
  mem     : MemCtl
  flc     : Flash
  fab     : Fab
  mrd     : Mrd
  sec     : Sec
  rng     : Rng
  fw      : Fw
  pwr     : Pwr
deriving DecidableEq, Repr

/-- No command of the module stops it with a fault: the spec gives every command of the table an effect, and a detected
error is a status, an event and a count (R26, R399). Nobody raises a fault; the type is empty. Safe. -/
inductive Fault where
deriving DecidableEq, Repr

/-- Why a step has no meaning. -/
inductive Refusal where
  /-- A command whose meaning is not written, by its mnemonic; raised by a refused arm of Machine/Dispatch.lean alone.
  Safe: the step stops. -/
  | notModelled (mnemonic : String)
deriving DecidableEq, Repr

/-! ## Values at reset, and the default of each table -/

def ringSetInit : RingSet := ⟨0, 0, 0, 0, 0, 0, 0, 0, 0, 0, true, 0, 0, true, 0, 0⟩

def cmdWinInit : CmdWin := ⟨[], false, false, 0, zeros 32, zeros 32, false, false, false⟩

/-- A function after module reset (R272). -/
def hifInit : HifFn :=
  { win := cmdWinInit, rings := .disabled, cause := 0, tdi := .unlocked, rs := ringSetInit, hbMs := 0, hbVal := 0,
    hbFrom := 0, unsig := 0, unsigAt := 0, ev1At := none, ev1Pend := false, ingIrq := 0, fetched := [], heldC := [],
    heldE := [], stuck := [], waitC := [], hiLatch := [], loStage := [], lost := false }

def cfgInit : PartCfg := ⟨0, 0, 0, [], [], []⟩

/-- A partition that holds no resources. -/
def partInit : Part := ⟨cfgInit, false, false, none, [], zeros 48⟩

def policyInit : Policy := ⟨0, false, 0, 0, 0, 0, 0, 0, 0, 0, 0, 0, 0, 0, zeros 48⟩

/-- An IDLE slot: every register of it reads 0 (R120). -/
def roundInit : Round :=
  { st := .idle, wasOpen := false, scrub := false, cause := 0, freeing := false, openOp := none, freeOp := none, policy := [], pol := policyInit,
    accBase := 0, mapBase := 0, cohort := 0, incomplete := 0, accepted := 0, rejected := 0, digest := zeros 48,
    mseed := zeros 32, pub := zeros 97, roster := none, staged := [], collOpen := false, thrAt := none, wants := false,
    draining := false, seed := [], unmask := .none, blocks := [], ahead := 0, stalled := false }

/-- The ingest registers at reset (R163). -/
def ingestInit : Ingest := ⟨0, 0, 0x000000FF, 0, 0, 0, 0, []⟩

def operandInit : Operand := ⟨0, 0, [], []⟩

def actInit : ActSet := ⟨operandInit, 0, 0, 0, true⟩

/-- A Panel with no fault recorded (R70) and nothing loaded. -/
def panelInit : Panel :=
  { health := 0, remapped := 0x7F, orphan := 0x7F, run := none, prog := [], pc := 0, bases := [0, 0, 0], set0 := actInit,
    set1 := actInit, streams := [], passes := [], pass := none, tiles := [], inflight := [], store := [], pages := [],
    stall := none, touched := [], unsynced := [], barriers := 0, atBarrier := false, stopped := none, ended := false,
    note := [], sat := false, inexact := false, sweeps := [] }

def gruInit : Gru := ⟨false, 0, [], 0⟩

def errInit : ErrLatch := ⟨false, 0, 0xFF, 0, 0⟩

def memInit : MemCtl := ⟨[], [], [], [], [], [], [], 0x18, 0x18, false, 0, errInit, []⟩

/-- A die as shipped: spare blocks by R215 over 64 dies of the MX60-AL6 (notes/assumptions/8.md). -/
def dieInit (spares : Nat) : Die := ⟨spares, false, false⟩

def flashInit : Flash :=
  { st := 0, dumpInc := false, torn := 0, patrol := 7, budget := 0, energy := 0, short := false, waitFrom := none,
    wp := false, lblocks := [], dies := [], erases := [], badBlks := [], freeBlks := [], sblks := [], nextSb := 0, pages := [],
    writeNo := 0, extents := [], nextExt := 0, ckpts := [], nextGen := [], ckptSeq := [], media := [], dump := [],
    dumpList := some [], dumpSeq := 0, dumpNo := 0 }

def portInit : Port := ⟨false, 0⟩

def fabInit : Fab :=
  { udpPort := 0xBB1D, timeout := 0x64, rnr := 0x14, beta := 0xCC, aiKib := 4, target := 0x0C, addr := [], ports := [],
    jobs := [], jobSeqs := [], peers := [], queues := [], windows := [], rx := [], nextRx := 0, msgs := [], nextMsg := 0, idGen := [],
    idFree := [], ctxs := [], ctxTick := 0, trig := [], armed := [], fails := [], authAt := [], flushes := [],
    nextFl := 0, unbinds := [], downAt := 0 }

/-- The Meridian's registers at reset (R304). -/
def mrdInit : Mrd :=
  { domain := 0x2C, ports := 0xFF, profile := 1, source := 0, st := 0, port := 0, stepped := false, offset := 0,
    inBand := 0, outBand := 0, large := false, slew := 0, slewAt := 0, master := none, foreign := [], syncT1 := none, syncT2 := 0, delayT3 := 0,
    delay := 0, announceAt := 0, ppsAt := none, ppsOut := false, marks := [], nextSeq := 0 }

def slotInit : KeySlot := ⟨false, zeros 32, 0, 0, false, false, false, 0, 0, 0⟩

def secInit : Sec :=
  { fused := .deployed, latch := false, cause := 0, setId := 0, epoch := 0, tenantId := none, pending := false,
    switchRun := false, retiring := false, udsFused := false, slots := [], masks := zeros 8192, maskDrbg := none,
    held := false, bootAt := 0, ide := [], sessions := [],
    dbgWin := 0, opKey := none, seqFloor := 0, weights := [], cdi1 := zeros 48, cdi2 := zeros 48, m1 := zeros 48,
    m2 := zeros 48, devPub := zeros 97, certs := [] }

def rngInit : Rng := ⟨false, false, false, false, 0, [], [], 0, 0, [], [], false, false⟩

def fwInit : Fw :=
  { load := 0, image := 0, slotB := 0, pieces := [], parts := [], stageNo := 0, manA := Config.shippedManifest, slotA := none, bootOk := false, manB := [], bytesB := [], refused := false,
    running := 0, floor := 0, cfgFmt := 0, mboxLo := 0, mboxHi := 0, offered := false, waitFrom := 0, dump := none,
    capture := none, dumpNo := 0, resetDue := false, coreAt := [] }

/-- AUX_ONLY after a start event with power applied (R376, R377, R393). -/
def pwrInit : Pwr :=
  { phase := .auxOnly, reset := 0, bank := 1, cMeas := 312, bankMv := 0, testing := false, charger := true,
    tripped := false, tripHold := false, lastStart := 0, clock := 1850, ceiling := 1850, alert := false, boot := 3, slotId := 0x3F, lc := 3,
    rom := false, latched := false, mainOk := false, inlet := 25, junction := 25, aux12 := true,
    aux54 := false, v54 := true, rstLow := none, perst := false, dump := none, dwell := none, dumpDone := false,
    keysClr := false, selfRst := false, rstRel := false, stepAt := 0, thrFrom := none }

/-- The module right after a module reset, in AUX_ONLY: the boot of R377 follows as commands. -/
def State.reset : State :=
  { pending := [], out := [], free := 0, now := 0, glb := ⟨false, 0, [], 6, 1⟩, evSeq := [], cntMod := [],
    cntPart := [], hif := [], ops := [], nextOp := 0, parts := [], layout := zeros 1024, panels := [], regions := [],
    nextDef := 0, xfers := [], nextX := 0, rounds := [], ingest := [], loom := ⟨0, false, false, 0, false⟩,
    shc := ⟨0, false, 0⟩, grus := [], keysets := [], progs := [], gruRuns := [], tierA := [], tierB := [], mem := memInit,
    flc := flashInit, fab := fabInit, mrd := mrdInit, sec := secInit, rng := rngInit, fw := fwInit, pwr := pwrInit }

end Sys2Proof.Machine
end

