-- ==== Sys2Proof/Machine/Ops.lean ====
section
/-! DEFINITION. The reporting operations that every family shares: statistics counters (R403 to R407), event records and
their delivery (R22 to R25, R260, R397), completion records and their delivery (R259, R267, R268), vectors (R261), and
the open values (notes/assumptions/6.md). They act on `Rep`, the reporting part of the state, and touch nothing else. -/

namespace Sys2Proof.Machine

/-- What a meaning answers. -/
abbrev Res := Host.Outcome State Fault Refusal

/-- The reporting part of the state. -/
structure Rep where
  now     : Nat
  out     : List Output
  evSeq   : Tbl Nat
  cntMod  : Tbl Counter
  cntPart : Tbl Counter
  hif     : Tbl HifFn
  ops     : Tbl Op
deriving DecidableEq, Repr

def repOf (s : State) : Rep := ⟨s.now, s.out, s.evSeq, s.cntMod, s.cntPart, s.hif, s.ops⟩

def setRep (s : State) (r : Rep) : State :=
  { s with out := r.out, evSeq := r.evSeq, cntMod := r.cntMod, cntPart := r.cntPart, hif := r.hif, ops := r.ops }

/-- `f` applied to the reporting part. -/
def onRep (f : Rep → Rep) (s : State) : State := setRep s (f (repOf s))

/-! ## Stamps -/

def nsPerSec : Nat := 1000000000

/-- Meridian seconds and nanoseconds of a time in ns (R304). -/
def secsOf (t : Nat) : Nat := (t / nsPerSec) % 2 ^ 48

def nanosOf (t : Nat) : Nat := t % nsPerSec

/-- STAMP of R259 and R397: seconds [31:0] in bits [63:32], nanoseconds in bits [31:0]. -/
def stampOf (t : Nat) : Nat := (secsOf t % 2 ^ 32) * 2 ^ 32 + nanosOf t

/-- The 10-byte Meridian time of R97: seconds in 6 bytes, nanoseconds in 4. -/
def time10 (t : Nat) : Bytes := leBytes 6 (secsOf t) ++ leBytes 4 (nanosOf t)

/-- A time truncated to the millisecond (R342). -/
def truncMs (t : Nat) : Nat := t - t % 1000000

/-! ## Outputs, functions -/

def Rep.put (r : Rep) (o : Output) : Rep := { r with out := r.out ++ [o] }

def Rep.fn (r : Rep) (f : Nat) : HifFn := tget hifInit r.hif f

def Rep.setFn (r : Rep) (f : Nat) (h : HifFn) : Rep := { r with hif := tset f h r.hif }

/-- The rings write to host memory: ACTIVE, or DELETING with no driver loss since (R265, R267). -/
def HifFn.live (h : HifFn) : Bool := h.rings == .active || (h.rings == .deleting && !h.lost)

/-- Ring positions (R255). -/
def ringNext (log i : Nat) : Nat := (i + 1) % 2 ^ log

def ringLive (log prod cons : Nat) : Nat := (prod + 2 ^ log - cons) % 2 ^ log

def ringRoom (log prod cons : Nat) : Bool := decide (ringLive log prod cons < 2 ^ log - 1)

/-- An MSI-X vector: no vector of a function is signalled while its rings are DETACHED or DISABLED (R261). -/
def Rep.vector (r : Rep) (f vec : Nat) : Rep :=
  if (r.fn f).rings = .disabled ∨ (r.fn f).rings = .detached then r else r.put (.msix f vec)

/-! ## Counters -/

def cntLimit : Nat := 2 ^ 48 - 1

def cntInit : Counter := ⟨0, false⟩

/-- A counter page: `none` the module page, `some p` the page of partition p (R406). -/
def Rep.counter (r : Rep) (page : Option Nat) (idx : Nat) : Counter :=
  match page with
  | none => tget cntInit r.cntMod idx
  | some p => tget cntInit r.cntPart (p * 64 + idx)

def Rep.setCounter (r : Rep) (page : Option Nat) (idx : Nat) (c : Counter) : Rep :=
  match page with
  | none => { r with cntMod := tset idx c r.cntMod }
  | some p => { r with cntPart := tset (p * 64 + idx) c r.cntPart }

/-- `c` after `n` more: at 2^48 − 1 it holds and sets OVF (R405). -/
def Counter.add (c : Counter) (n : Nat) : Counter :=
  if c.ovf then c else if cntLimit ≤ c.count + n then ⟨cntLimit, true⟩ else ⟨c.count + n, false⟩

/-- The page that counts a function's own counters (R406): the PF's on the module page. -/
def pageOf (f : Nat) : Option Nat := if f = 0 then none else some (f - 1)

/-- The index of a counter of the host interface on the page of function `f` (R407): `k` 0 BAD_DOORBELL, 1 EV_DROP,
2 STICK, 3 HELD_DISCARD, 4 IDE_REJECT. -/
def hifIdx (f k : Nat) : Nat := if f = 0 then modCntHifBadDoorbell + k else partCntHifBadDoorbell + k

/-! ## Event records -/

/-- The 32 bytes of an event record for function `f` (R397): the PF copy of a partition event has its stamp truncated
to the ms (R342). -/
def evBytes (f : Nat) (e : EvRec) (phase : Bool) : Bytes :=
  leBytes 2 e.source ++ leBytes 2 e.code ++ leBytes 4 e.seq
    ++ leBytes 8 (stampOf (if f = 0 ∧ e.part ≠ 0xFF then truncMs e.stamp else e.stamp))
    ++ leBytes 1 e.part ++ zeros 1 ++ slice e.detail 0 13 ++ leBytes 1 (if phase then 0x80 else 0)

/-- The vector of an event record (R261): vector 1, at most once in 10 µs. -/
def Rep.evVector (r : Rep) (f : Nat) : Rep :=
  let h := r.fn f
  match h.ev1At with
  | some t => if r.now < t + 10000 then r.setFn f { h with ev1Pend := true }
      else (r.setFn f { h with ev1At := some r.now, ev1Pend := false }).vector f 1
  | none => (r.setFn f { h with ev1At := some r.now, ev1Pend := false }).vector f 1

/-- An event record written at the producer index of the event ring (R255). -/
def Rep.writeEv (r : Rep) (f : Nat) (e : EvRec) : Rep :=
  let h := r.fn f
  let nxt := ringNext h.rs.eqLog h.rs.eqProd
  let rs := { h.rs with eqProd := nxt, eqPass := if nxt = 0 then !h.rs.eqPass else h.rs.eqPass }
  ((r.put (.hostWrite f (h.rs.eqBase + 32 * h.rs.eqProd) (evBytes f e h.rs.eqPass))).setFn f { h with rs := rs }).evVector f

def heldMax : Nat := 32768

/-- An event at the event ring of one function (R260, R267, R268): written, held, or (second component) dropped. -/
def Rep.putEv (r : Rep) (f : Nat) (e : EvRec) : Rep × Bool :=
  let h := r.fn f
  if h.live ∧ h.heldE = [] then
    if ringRoom h.rs.eqLog h.rs.eqProd h.rs.eqHead then (r.writeEv f e, false) else (r, true)
  else if h.heldE.length < heldMax then (r.setFn f { h with heldE := h.heldE ++ [e] }, false)
  else (r, true)

/-- The rings that receive an event naming partition `part` (R260). -/
def evTargets (part : Nat) : List Nat := if part = 0xFF then [0] else [part + 1, 0]

/-- The event of a counter that has just saturated (R405, R408). -/
def ovfPart (page : Option Nat) : Nat := match page with | none => 0xFF | some p => p

/-- An event at the ring of one function: a drop is counted, and a drop counter that saturates joins `acc.2`. -/
def Rep.offerEv (e : EvRec) (acc : Rep × List Nat) (f : Nat) : Rep × List Nat :=
  match acc.1.putEv f e with
  | (r, false) => (r, acc.2)
  | (r, true) =>
    let c := r.counter (pageOf f) (hifIdx f 1)
    let c' := c.add 1
    (r.setCounter (pageOf f) (hifIdx f 1) c', if c'.ovf && !c.ovf then acc.2 ++ [f] else acc.2)

/-- An event raised by its source (R22, R23, R260): delivered to every ring that receives it, and then the events of the drop
counters that it saturated (R25, R405). Each drop counter saturates once, so `fuel` bounds that chain. -/
def Rep.raiseN : Nat → Nat → Nat → Nat → Bytes → Rep → Rep
  | 0, _, _, _, _, r => r
  | fuel + 1, src, code, part, detail, r =>
    let seq := tget 0 r.evSeq src
    let x := (evTargets part).foldl (Rep.offerEv ⟨src, code, seq, r.now, part, detail⟩)
      ({ r with evSeq := tset src ((seq + 1) % 2 ^ 32) r.evSeq }, [])
    x.2.foldl (fun r f => Rep.raiseN fuel srcGlobal evCntOverflow (ovfPart (pageOf f))
      (leBytes 1 (ovfPart (pageOf f)) ++ leBytes 2 (hifIdx f 1)) r) x.1

/-- An event record: source, code, partition (0xFF for none), detail items. -/
def Rep.raise (src code part : Nat) (detail : Bytes) (r : Rep) : Rep := r.raiseN 40 src code part detail

/-- `n` counted at `idx` of a page (R404, R405). -/
def Rep.count (page : Option Nat) (idx n : Nat) (r : Rep) : Rep :=
  let c := r.counter page idx
  let c' := c.add n
  let r' := r.setCounter page idx c'
  if c'.ovf && !c.ovf then
    r'.raise srcGlobal evCntOverflow (ovfPart page) (leBytes 1 (ovfPart page) ++ leBytes 2 idx)
  else r'

/-! ## Completion records -/

/-- The 32 bytes of a completion record (R259). -/
def cplBytes (h : HifFn) (c : CplRec) (phase : Bool) : Bytes :=
  leBytes 4 c.tag ++ leBytes 2 c.status ++ leBytes 1 c.opcode
    ++ leBytes 1 ((if phase then 1 else 0) + (if c.held then 2 else 0)) ++ leBytes 2 c.idx ++ leBytes 2 h.rs.sqHead
    ++ zeros 4 ++ slice c.detail 0 8 ++ leBytes 8 (stampOf c.stamp)

/-- A completion record written at the producer index of the completion ring, and vector 0 (R255, R261). -/
def Rep.writeCpl (r : Rep) (f : Nat) (c : CplRec) : Rep :=
  let h := r.fn f
  let nxt := ringNext h.rs.cqLog h.rs.cqProd
  let rs := { h.rs with cqProd := nxt, cqPass := if nxt = 0 then !h.rs.cqPass else h.rs.cqPass }
  let n := h.unsig + 1
  let r' := r.put (.hostWrite f (h.rs.cqBase + 32 * h.rs.cqProd) (cplBytes h c h.rs.cqPass))
  let at0 := if h.unsig = 0 then r.now else h.unsigAt
  if h.rs.coN ≤ n then (r'.setFn f { h with rs := rs, unsig := 0, unsigAt := at0 }).vector f 0
  else r'.setFn f { h with rs := rs, unsig := n, unsigAt := at0 }

/-- The token of a descriptor is freed when its record is written or held (R256). -/
def Rep.freeOp (r : Rep) (op : Option Nat) : Rep :=
  match op with
  | some id => { r with ops := tdel id r.ops }
  | none => r

/-- A completion record of function `f` delivered: written, left waiting for ring space, held, or stuck (R255, R267,
R268). -/
def Rep.placeCpl (r : Rep) (f : Nat) (c : CplRec) : Rep :=
  let h := r.fn f
  if h.live then
    if h.heldC = [] ∧ h.stuck = [] then
      if h.waitC = [] ∧ ringRoom h.rs.cqLog h.rs.cqProd h.rs.cqHead then (r.writeCpl f c).freeOp c.op
      else r.setFn f { h with waitC := h.waitC ++ [c] }
    else if h.stuck = [] ∧ h.heldC.length < heldMax then
      (r.setFn f { h with heldC := h.heldC ++ [{ c with op := none }] }).freeOp c.op
    else (r.setFn f { h with stuck := h.stuck ++ [c] }).count (pageOf f) (hifIdx f 2) 1
  else if h.stuck = [] ∧ h.heldC.length < heldMax then
    (r.setFn f { h with heldC := h.heldC ++ [{ c with op := none, held := true }] }).freeOp c.op
  else (r.setFn f { h with stuck := h.stuck ++ [{ c with held := true }] }).count (pageOf f) (hifIdx f 2) 1

/-- The result of a control command (R253, R270): into HIF_CMD_RESULT, or into the reset-held area when a reset met it. -/
def Rep.cmdResult (r : Rep) (f : Nat) (c : CplRec) : Rep :=
  let h := r.fn f
  let rec0 := cplBytes h c false
  let w := if h.win.toHeld then
      { h.win with
        busy := false, toHeld := false, heldRec := rec0, heldReplaced := h.win.heldReplaced || h.win.heldValid
        heldValid := true }
    else { h.win with busy := false, result := rec0 }
  (r.setFn f { h with win := w }).vector f 3

/-- Descriptor fields (R257). -/
def Op.opcode (o : Op) : Nat := byteAt o.bytes 0

def Op.quiet (o : Op) : Bool := bit (byteAt o.bytes 1) 1

def Op.fence (o : Op) : Bool := bit (byteAt o.bytes 1) 0

def Op.tag (o : Op) : Nat := le o.bytes 4 4

/-- The partition that a descriptor acts on (R251); 0xFF for the PF. -/
def Op.part (o : Op) : Nat := if o.fn = 0 then 0xFF else o.fn - 1

/-- A descriptor or control command ends with `status` and `detail`: its record is delivered unless QUIET and ST_OK
(R257, R259). -/
def Rep.finish (id status : Nat) (detail : Bytes) (r : Rep) : Rep :=
  match tfind r.ops id with
  | none => r
  | some o =>
    let c : CplRec := ⟨o.tag, status, o.opcode, o.idx, detail, r.now, false, some id⟩
    match o.origin with
    | .control => (r.cmdResult o.fn { c with idx := 0 }).freeOp (some id)
    | _ =>
      if o.quiet ∧ status = stOk then r.freeOp (some id)
      else { r with ops := tset id { o with phase := .done, status := status, detail := detail } r.ops }.placeCpl o.fn c

/-! ## The same over the whole state -/

/-- An event record. -/
def State.raise (s : State) (src code part : Nat) (detail : Bytes) : State := onRep (Rep.raise src code part detail) s

/-- `n` at a counter of a page. -/
def State.count (s : State) (page : Option Nat) (idx n : Nat) : State := onRep (Rep.count page idx n) s

/-- One at a counter of the module page. -/
def State.countMod (s : State) (idx : Nat) : State := s.count none idx 1

/-- One at a counter of the page of partition `p`. -/
def State.countPart (s : State) (p idx : Nat) : State := s.count (some p) idx 1

/-- An error counted on the module page, and on a partition's when it belongs to one (R395). -/
def State.countError (s : State) (p : Option Nat) (idx : Nat) : State :=
  match p with
  | some q => (s.countMod idx).countPart q idx
  | none => s.countMod idx

/-- A descriptor or control command ends. -/
def State.finish (s : State) (id status : Nat) (detail : Bytes := []) : State := onRep (Rep.finish id status detail) s

/-- An output. -/
def State.put (s : State) (o : Output) : State := { s with out := s.out ++ [o] }

def State.op (s : State) (id : Nat) : Option Op := tfind s.ops id

def State.setOp (s : State) (id : Nat) (o : Op) : State := { s with ops := tset id o s.ops }

def State.fn (s : State) (f : Nat) : HifFn := tget hifInit s.hif f

def State.setFn (s : State) (f : Nat) (h : HifFn) : State := { s with hif := tset f h s.hif }

/-- Host memory of function `f` can be reached (R267). -/
def State.reachable (s : State) (f : Nat) : Bool := (s.fn f).live

/-- The number of the next open value, and the state with it taken (notes/assumptions/6.md). -/
def State.takeFree (s : State) : Nat × State := (s.free, { s with free := s.free + 1 })

/-- `n` bytes that nothing constrains. -/
def State.freeBytes (s : State) (n : Nat) : Bytes × State :=
  ((List.range n).map (Config.freeByte s.free), { s with free := s.free + 1 })

/-- A truth value that nothing constrains. -/
def State.freeBool (s : State) : Bool × State := (Config.freeBool s.free, { s with free := s.free + 1 })

/-! ## Running a descriptor -/

/-- `f` on the descriptor that ticket `id` names when it waits to run and holds one of the opcodes; any other ticket
names nothing that this command could act on (notes/assumptions/4.md). -/
def onReady (opc : Nat) (id : Nat) (s : State) (f : Op → State) : State :=
  match s.op id with
  | some o => if o.phase = .ready ∧ o.opcode = opc then f o else s
  | none => s

/-- The descriptor waits for its end. -/
def State.running (s : State) (id : Nat) (o : Op) : State := s.setOp id { o with phase := .running }

/-- The status of an operation that ran (R399): its first LASTING status, else a status of another range, else its first
TRANSIENT status, else ST_OK. -/
def firstStatus (lasting other trans : List Nat) : Nat := (lasting ++ other ++ trans).headD stOk

/-- The range of a status (R399). -/
def isLasting (st : Nat) : Bool := st / 256 == 5

def isTransient (st : Nat) : Bool := st / 256 == 1

/-- The status of an operation that met the statuses `l` in order (R399). -/
def mergeStatus (l : List Nat) : Nat :=
  firstStatus (l.filter isLasting) (l.filter (fun x => x != 0 && !isLasting x && !isTransient x)) (l.filter isTransient)

end Sys2Proof.Machine
end

