-- ==== Sys2Proof/Machine/Operands.lean ====
section
/-! DEFINITION. Operand forms: address words (R56), Meridian times (R97), FMTA sizes, a partition's resources and address
map (R190 to R193), and the areas that a rule locks (R100, R151, R170, R334). -/

namespace Sys2Proof.Machine

/-! ## Address words (R56) -/

/-- The fields of an address word; `ldim` in units of 16 bytes. -/
structure AddrWord where
  space : Nat
  base  : Nat
  ldim  : Nat
  addr  : Nat
deriving DecidableEq, Repr

def addrOf (v : Nat) : AddrWord := ⟨field v 62 2, field v 60 2, field v 41 19, field v 0 41⟩

/-- The address word at `off` of a payload. -/
def addrAt (d : Bytes) (off : Nat) : AddrWord := addrOf (le d off 8)

/-- SPACE names tier A (0b01) or tier B (0b10). -/
def AddrWord.isTier (a : AddrWord) : Bool := a.space == 1 || a.space == 2

/-- 0 for tier A, 1 for tier B. -/
def AddrWord.tier (a : AddrWord) : Nat := a.space - 1

/-- A plain address of tier A or tier B: BASE 0b00 and LDIM 0. -/
def AddrWord.plain (a : AddrWord) : Bool := a.isTier && a.base == 0 && a.ldim == 0

/-! ## Times -/

/-- A 10-byte Meridian time in nanoseconds; none when its nanoseconds are out of range (R97). -/
def timeAt (d : Bytes) (off : Nat) : Option Nat :=
  let ns := le d (off + 6) 4
  if ns < nsPerSec then some (le d off 6 * nsPerSec + ns) else none

def msNs : Nat := 1000000

def usNs : Nat := 1000

/-! ## What a partition holds -/

def unitSize (tier : Nat) : Nat := if tier = 0 then 2 ^ 30 else 2 ^ 32

def PartCfg.units (c : PartCfg) (tier : Nat) : List Nat := if tier = 0 then c.tierA else c.tierB

/-- A partition with no resources is disabled (R318). -/
def PartCfg.enabled (c : PartCfg) : Bool :=
  c.pairs != 0 || c.grus != 0 || !c.tierA.isEmpty || !c.tierB.isEmpty || !c.tierC.isEmpty

/-- The Panels of a partition, ascending: pair k is Panels 2k and 2k + 1. -/
def PartCfg.panels (c : PartCfg) : List Nat := (bitsOf 32 c.pairs).flatMap (fun k => [2 * k, 2 * k + 1])

/-- Bytes of the scratch spill areas at the top of the tier A range (R318): none at 22 MiB. -/
def PartCfg.spillBytes (c : PartCfg) : Nat := if 22 < c.scratch then c.panels.length * c.scratch * 2 ^ 20 else 0

def aliveBytes : Nat := 2 ^ 26

/-- The bytes of a tier that a partition's accesses reach: its units without the spill areas (R318) and the alive tables
(R151). -/
def PartCfg.usable (c : PartCfg) (tier : Nat) : Nat :=
  (c.units tier).length * unitSize tier - (if tier = 0 then c.spillBytes else aliveBytes)

def State.part (s : State) (p : Nat) : Part := tget partInit s.parts p

def State.setPart (s : State) (p : Nat) (x : Part) : State := { s with parts := tset p x s.parts }

def State.cfg (s : State) (p : Nat) : PartCfg := (s.part p).cfg

def State.enabled (s : State) (p : Nat) : Bool := decide (p < 32) && (s.cfg p).enabled

/-- `[a, a + n)` lies in the units of partition `p` (R193). -/
def State.inUnits (s : State) (p tier a n : Nat) : Bool := decide (a + n ≤ (s.cfg p).usable tier)

/-- The physical address of a partition address: the unit table maps partition units to physical units. -/
def State.phys (s : State) (p tier a : Nat) : Nat :=
  ((s.cfg p).units tier).getD (a / unitSize tier) 0 * unitSize tier + a % unitSize tier

/-- The partition that holds physical unit `u` of a tier, and the partition unit (R192). -/
def State.holder (s : State) (tier u : Nat) : Option (Nat × Nat) :=
  (List.range 32).findSome? (fun p =>
    match ((s.cfg p).units tier).findIdx? (· == u) with
    | some i => some (p, i)
    | none => none)

/-- The partition address of a physical address, with its partition; none for an unassigned unit or the system area. -/
def State.partAddr (s : State) (tier pa : Nat) : Option (Nat × Nat) :=
  match s.holder tier (pa / unitSize tier) with
  | some (p, i) => some (p, i * unitSize tier + pa % unitSize tier)
  | none => none

/-- The partition that holds a Panel. -/
def State.panelPart (s : State) (n : Nat) : Option Nat := (List.range 32).find? (fun p => bit (s.cfg p).pairs (n / 2))

/-- The partition that holds a GRU. DESIGN CHOICE: one taken out of service belongs to none, though the layout block that R317
reports still names it (R188; notes/assumptions/80.md). -/
def State.gruPart (s : State) (g : Nat) : Option Nat := if (tget gruInit s.grus g).offline then none else (List.range 32).find? (fun p => bit (s.cfg p).grus g)

def State.enabledCount (s : State) : Nat := ((List.range 32).filter s.enabled).length

/-! ## Channel groups (R192) -/

/-- The tier A pseudo-channel group or tier B channel of a physical address. -/
def groupOf (tier pa : Nat) : Nat :=
  if tier = 0 then ((pa >>> 8) ^^^ (pa >>> 16)) % 256 else ((pa >>> 8) ^^^ (pa >>> 12)) % 16

/-- The byte within the group. -/
def groupOff (tier pa : Nat) : Nat :=
  if tier = 0 then (pa >>> 16) * 256 + pa % 256 else (pa >>> 12) * 256 + pa % 256

/-- The Seam unit of a physical address. -/
def seamUnit (tier pa : Nat) : Nat := if tier = 0 then groupOf 0 pa else 256 + groupOf 1 pa

/-- The source of the controller that serves a physical address (R22, R408). -/
def ctlSrc (tier pa : Nat) : Nat := if tier = 0 then srcTierA (groupOf 0 pa / 16) else srcTierB (groupOf 1 pa)

/-! ## Rounds: what a policy implies (R97, R99) -/

def State.round (s : State) (r : Nat) : Round := tget roundInit s.rounds r

def State.setRound (s : State) (r : Nat) (x : Round) : State := { s with rounds := tset r x s.rounds }

/-- NSEG. -/
def Policy.nseg (p : Policy) : Nat := ceilDiv p.vlen 16384

/-- Bytes of a ring element. -/
def Policy.elem (p : Policy) : Nat := if p.ring64 then 8 else 4

/-- Bytes of a segment of the accumulator. -/
def Policy.segBytes (p : Policy) : Nat := 16384 * p.elem

def Policy.accBytes (p : Policy) : Nat := p.nseg * p.segBytes

def Policy.tableBytes (p : Policy) : Nat := 8 * p.slots

def Policy.mapBytes (p : Policy) : Nat := p.tableBytes + ceilDiv (p.slots * p.nseg) 512 * 64

/-- The code of a round state (R102). -/
def RState.code : RState → Nat
  | .idle => 0 | .created => 1 | .opened => 2 | .closed => 3 | .completing => 4 | .sealed => 5 | .unmasking => 6
  | .ready => 7 | .released => 8 | .aborted => 9

/-- CREATED to READY. -/
def RState.running (r : RState) : Bool := decide (1 ≤ r.code) && decide (r.code ≤ 7)

/-! ## Locked areas -/

/-- `[a, a + n)` of a tier touches the accumulator of round `r`. -/
def Round.hitsAcc (r : Round) (tier a n : Nat) : Bool := tier == 0 && overlaps a n r.accBase r.pol.accBytes

/-- `[a, a + n)` of a tier touches the map area of round `r`. -/
def Round.hitsMap (r : Round) (tier a n : Nat) : Bool := tier == 1 && overlaps a n r.mapBase r.pol.mapBytes

/-- A round of partition `p` locks the range (R100). -/
def State.aggLocked (s : State) (p tier a n : Nat) : Bool :=
  [0, 1].any (fun k => let r := s.round (2 * p + k); r.st != .idle && (r.hitsAcc tier a n || r.hitsMap tier a n))

/-- A round of partition `p` locks the range against a read by a tile command or a tier C write: the accumulator of a
RELEASED round is open to those (R100). -/
def State.aggLockedRead (s : State) (p tier a n : Nat) : Bool :=
  [0, 1].any (fun k => let r := s.round (2 * p + k)
    r.st != .idle && ((r.hitsAcc tier a n && r.st != .released) || r.hitsMap tier a n))

/-- The range touches a released accumulator of the partition (R12). -/
def State.aggReleased (s : State) (p tier a n : Nat) : Bool :=
  [0, 1].any (fun k => let r := s.round (2 * p + k); r.st == .released && r.hitsAcc tier a n)

/-- The range touches a registered key set (R170) or gate program (R181) of the partition. -/
def State.gruLocked (s : State) (p tier a n : Nat) : Bool :=
  s.keysets.any (fun e => e.1 / 4096 == p && e.2.tier == tier && overlaps a n e.2.base e.2.len)
    || s.progs.any (fun e => e.1 / 256 == p && e.2.tier == tier && overlaps a n e.2.base e.2.len)

/-- The range touches a sealed weight range of the partition (R334). -/
def State.sealedHit (s : State) (p tier a n : Nat) : Bool :=
  s.sec.weights.any (fun e => e.1 / 64 == p && e.2.tier == tier && overlaps a n e.2.base e.2.len)

/-! ## Key slots (R326, R327) -/

def State.slot (s : State) (n : Nat) : KeySlot := tget slotInit s.sec.slots n

def State.setSlot (s : State) (n : Nat) (k : KeySlot) : State := { s with sec := { s.sec with slots := tset n k s.sec.slots } }

/-- ENGINE bits of SEC_SLOT_ATTR (R352). -/
abbrev engLoom : Nat := 0
abbrev engShc : Nat := 1
abbrev engPxt : Nat := 2
abbrev engIde : Nat := 3
abbrev engMem : Nat := 4
abbrev engTierC : Nat := 5
abbrev engWeight : Nat := 6
abbrev engGru : Nat := 7
abbrev engCart : Nat := 8
abbrev engUpd : Nat := 9
abbrev engKdf : Nat := 10

/-- An engine may use a slot for an operation of partition `p` (R327). -/
def KeySlot.usable (k : KeySlot) (eng p : Nat) : Bool := k.valid && bit k.engine eng && (k.anyPart || k.part == p)

/-! ## The lifecycle state (R2, R3) -/

/-- LIFECYCLE code: the latch takes precedence over fused DEPLOYED. -/
def Sec.lifecycle (x : Sec) : Nat :=
  match x.fused with
  | .factory => 0
  | .deployed => if x.latch then 2 else 1
  | .retired => 3

/-- The tenant has an attested session (R118, R337). -/
def Sec.tenantOpen (x : Sec) : Bool := x.sessions.any (·.tenant)

end Sys2Proof.Machine
end

