-- ==== Sys2Proof/Machine/BlankOps.lean ====
section
/-! DEFINITION. The lines and rows of tiers A and B by physical address, and blanking (R192, R197, R198, R204, R205). -/

namespace Sys2Proof.Machine

def State.memOf (s : State) (tier : Nat) : Mem := if tier = 0 then s.tierA else s.tierB

def State.setMem (s : State) (tier : Nat) (m : Mem) : State := if tier = 0 then { s with tierA := m } else { s with tierB := m }

/-- The number under which MemCtl lists the line of a physical address. -/
def lineKey (tier pa : Nat) : Nat := tier * 2 ^ 50 + pa / 64

/-- The tier and the physical address of a line number. -/
def keyTier (key : Nat) : Nat := key / 2 ^ 50

def keyAddr (key : Nat) : Nat := key % 2 ^ 50 * 64

/-- The line of a physical address is poisoned (R200), for good where its row had to stay in place (R205). -/
def State.poisoned (s : State) (tier pa : Nat) : Bool :=
  s.mem.poison.contains (lineKey tier pa) || s.mem.stuck.contains (lineKey tier pa)

/-! ## Rows (R204, R205) -/

/-- The number of the row of a physical address: group x 2^40 + row of 2 KiB of group offset; tier B groups follow the
256 of tier A. -/
def rowKey (tier pa : Nat) : Nat := (tier * 256 + groupOf tier pa) * 2 ^ 40 + groupOff tier pa / 2048

/-- The eight granules of 256 bytes of the row of a physical address, one from each block of 64 KiB (tier A) or 4 KiB
(tier B) of an aligned eight (R205). -/
def rowGranules (tier pa : Nat) : List Nat :=
  let z := if tier = 0 then 2 ^ 16 else 2 ^ 12
  (List.range 8).map (fun i =>
    let b := pa / (8 * z) * 8 + i
    b * z + 256 * (groupOf tier pa ^^^ (b % (if tier = 0 then 256 else 16))))

/-- The first line of the row of a physical address. -/
def rowFirst (tier pa : Nat) : Nat := (rowGranules tier pa).headD pa

/-- Spare rows of a group or channel (R204). -/
def spareRows (tier : Nat) : Nat := if tier = 0 then 64 else 256

/-- The system area of tier B: physical 1,536 GiB and above (R190). -/
def inSystemArea (tier pa : Nat) : Bool := tier == 1 && decide (1536 * 2 ^ 30 ≤ pa)

/-! ## Blanking (R198) -/

/-- Physical `[lo, hi)` of a tier reads blank: zero, unwritten, not poisoned but for lines poisoned for good. -/
def State.blank (s : State) (tier lo hi : Nat) : State :=
  let a := tier * 2 ^ 50 + lo / 64
  let b := tier * 2 ^ 50 + ceilDiv hi 64
  { s.setMem tier (clearMem lo hi (s.memOf tier)) with
    mem := { s.mem with
      written := spanDel a b s.mem.written, upset := tdelRange a b s.mem.upset
      poison := s.mem.poison.filter (fun k => !(decide (a ≤ k) && decide (k < b))) } }

/-- One physical unit blanked. -/
def State.blankUnit (s : State) (tier u : Nat) : State := s.blank tier (u * unitSize tier) ((u + 1) * unitSize tier)

/-- The physical pieces of a range of a partition, one for each partition unit it touches. -/
def State.unitPieces (s : State) (p tier a n : Nat) : List (Nat × Nat) :=
  let z := unitSize tier
  if n = 0 then [] else
    (List.range ((a + n - 1) / z - a / z + 1)).map (fun i =>
      let lo := max a ((a / z + i) * z)
      let hi := min (a + n) ((a / z + i + 1) * z)
      (s.phys p tier lo, s.phys p tier lo + (hi - lo)))

/-- A range of a partition blanked. -/
def State.blankRange (s : State) (p tier a n : Nat) : State :=
  (s.unitPieces p tier a n).foldl (fun s e => s.blank tier e.1 e.2) s

/-- Both tiers, the system area of tier B among them. -/
def State.blankAll (s : State) : State :=
  { s with tierA := [], tierB := [], mem := { s.mem with written := [], upset := [], poison := [] } }

/-- Physical `[lo, hi)` of a tier, whole lines, written with zeros. -/
def State.zeroPiece (s : State) (tier lo hi : Nat) : State :=
  let t := s.blank tier lo hi
  { t with mem := { t.mem with written := spanAdd (tier * 2 ^ 50 + lo / 64) (tier * 2 ^ 50 + ceilDiv hi 64) t.mem.written } }

/-- A range of a partition zeroed by the engine that owns it (alive tables, accumulators, map areas): written with zeros. -/
def State.zeroRange (s : State) (p tier a n : Nat) : State :=
  (s.unitPieces p tier a n).foldl (fun s e => s.zeroPiece tier e.1 e.2) s

end Sys2Proof.Machine
end

