-- ==== Sys2Proof/Machine/RoundOps.lean ====
section
/-! DEFINITION. Round operations that several families share: a change of state and its event (R102), the end of a
round's secrets (R113, R143), the abort of a round (R115, R116), a LASTING fault under a round (R112). -/

namespace Sys2Proof.Machine

/-- EV_AGG_STATE of round `r` (R102, R408): round ID, state code, cause when ABORTED. -/
def State.roundEvent (s : State) (r : Nat) (st : RState) (cause : Nat) : State :=
  s.raise (srcEngine (r / 2)) evAggState (r / 2)
    (leBytes 1 r ++ leBytes 1 st.code ++ leBytes 1 (if st = .aborted then cause else 0))

/-- Round `r` enters state `st` (R102). -/
def State.enterRound (s : State) (r : Nat) (st : RState) : State :=
  (s.setRound r { s.round r with st := st }).roundEvent r st 0

/-- Every staged SHARE_SUM of a round that is decided completes with ST_AGG_STATE (R134). -/
def State.dropStaged (s : State) (r : Nat) : State :=
  (s.round r).staged.foldl (fun s e => s.finish e.op stAggState) (s.setRound r { s.round r with staged := [] })

/-- The expansion of round `r` stops on a Panel: its sweeps go, and where it was executing, the sets, stream, passes and
tiles are zeroed (R115, R143). -/
def stopExpand (r : Nat) (n : Panel) : Panel :=
  let rest := n.sweeps.filter (fun (x : Sweep) => x.round != r)
  match n.run, n.sweeps with
  | none, x :: _ =>
    if x.round = r then
      { n with
        sweeps := rest, pc := 0, set0 := actInit, set1 := actInit, streams := [], passes := [], pass := none, tiles := []
        inflight := [] }
    else { n with sweeps := rest }
  | _, _ => { n with sweeps := rest }

/-- Everything a round holds in secret is destroyed: S, the round key pair's slot, opened share-sums, the expansion in
the Panels (R113, R115, R143). Adds of the round that no Seam unit has committed go with it when `drop` is set. -/
def State.endSecrets (s : State) (r : Nat) : State :=
  { s with
    sec := { s.sec with slots := tdel (104 + r) s.sec.slots }
    panels := s.panels.map (fun e => (e.1, stopExpand r e.2))
    xfers := s.xfers.filter (fun e => e.2.dst != .acc r)
    loom := if s.loom.round = r then { s.loom with busy := false, stalled := false } else s.loom
    shc := if s.shc.round = r then { s.shc with busy := false, opened := 0 } else s.shc }

/-- The background scrub of an aborted round's accumulator and map area (R115). -/
def State.scrubRound (s : State) (r : Nat) : State :=
  let x := s.round r
  if x.scrub then
    ((s.blankRange (r / 2) 0 x.accBase x.pol.accBytes).blankRange (r / 2) 1 x.mapBase x.pol.mapBytes).setRound r
      { x with scrub := false }
  else s

/-- Every scrub that waits runs. -/
def State.scrubRounds (s : State) : State :=
  if s.rounds.any (fun e => e.2.scrub) then (List.range 64).foldl State.scrubRound s else s

/-- Round `r` is aborted with `cause` when its state is CREATED to READY; any other state stands (R102, R115, R116). A
ROUND_OPEN that has not completed completes with ST_AGG_ABORTED, round and cause in its DETAIL (R117). The scrub of its
areas is left to the background (`State.scrubRounds`). -/
def State.abortRound (s : State) (r cause : Nat) : State :=
  let x := s.round r
  if x.st.running then
    let s1 := (s.endSecrets r).setRound r
      { x with
        st := .aborted, cause := cause, pub := zeros 97, seed := [], unmask := .none, blocks := [], draining := false
        collOpen := false, wants := false, thrAt := none, openOp := none, scrub := true }
    let s2 := s1.roundEvent r .aborted cause
    let s3 := s2.dropStaged r
    match x.openOp with
    | some op => s3.finish op stAggAborted (leBytes 1 r ++ leBytes 1 cause)
    | none => s3
  else s

/-- The causes of R114. -/
abbrev causeHostAbort : Nat := 0x01
abbrev causeCohortSmall : Nat := 0x02
abbrev causeIncompleteClient : Nat := 0x03
abbrev causeRetractMismatch : Nat := 0x04
abbrev causeSharesShort : Nat := 0x05
abbrev causeShareInconsistent : Nat := 0x06
abbrev causeUnmaskLate : Nat := 0x07
abbrev causeShardFault : Nat := 0x08
abbrev causeMarkAborted : Nat := 0x09
abbrev causeKeysZeroised : Nat := 0x0A
abbrev causeReset : Nat := 0x0B
abbrev causeOpenLate : Nat := 0x0C

/-- Every round from CREATED to READY is aborted, in ascending round ID. -/
def State.abortAll (s : State) (cause : Nat) : State := (List.range 64).foldl (fun s r => s.abortRound r cause) s

/-- Round `r` holds a byte of the row of a physical address in its accumulator or map area. -/
def State.rowHits (s : State) (r tier pa : Nat) : Bool :=
  (rowGranules tier pa).any (fun g =>
    match s.partAddr tier g with
    | some (p, a) => r / 2 == p && ((s.round r).hitsAcc tier a 256 || (s.round r).hitsMap tier a 256)
    | none => false)

/-- A LASTING fault of the row at a physical address: a round that holds part of it in its accumulator or map area aborts
with SHARD_FAULT (R112, R204). -/
def State.shardFault (s : State) (tier pa : Nat) : State :=
  match s.partAddr tier pa with
  | some (p, _) => [2 * p, 2 * p + 1].foldl (fun s r => if s.rowHits r tier pa then s.abortRound r causeShardFault else s) s
  | none => s

/-- A LASTING fault of the Seam unit, engine or check unit that serves partition `p`'s rounds (R112). -/
def State.engineFault (s : State) (p : Nat) : State :=
  (s.abortRound (2 * p) causeShardFault).abortRound (2 * p + 1) causeShardFault

end Sys2Proof.Machine
end

