-- ==== Sys2Proof/Machine/MemOps.lean ====
section
/-! DEFINITION. Accesses to tiers A and B by partition address: reads and partial writes that meet ECC errors, their retry
and poisoning (R199 to R202), writes over poisoned lines (R201), row retirement and defective units (R204, R205), the error
latch (R213), the memory keys that every access goes through (R195, R327). -/

namespace Sys2Proof.Machine

/-- The errors of `errs` have arisen in their lines. -/
def State.arise (s : State) (errs : List LineErr) : State :=
  { s with mem := { s.mem with upset := errs.foldl (fun t e => tset (lineKey e.tier e.addr) e.cls t) s.mem.upset } }

/-- One byte of a partition as it is stored, whatever its line's state. -/
def State.ptByte (s : State) (p tier a : Nat) : Byte := rdByte (s.memOf tier) (s.phys p tier a)

/-- `n` stored bytes of a partition from `a`. -/
def State.ptBytes (s : State) (p tier a n : Nat) : Bytes := (List.range n).map (fun i => s.ptByte p tier (a + i))

/-- One stored byte of a partition replaced. -/
def State.putByte (s : State) (p tier a : Nat) (b : Byte) : State := s.setMem tier (wrByte (s.phys p tier a) b (s.memOf tier))

/-- Stored bytes of a partition replaced from `a`. -/
def State.putBytes (p tier : Nat) : Nat → Bytes → State → State
  | _, [], s => s
  | a, b :: bs, s => State.putBytes p tier (a + 1) bs (s.putByte p tier a b)

/-- The lines of `[a, a + n)`, as line numbers of the address space that holds `a`. -/
def linesOf (a n : Nat) : List Nat := if n = 0 then [] else (List.range ((a + n - 1) / 64 - a / 64 + 1)).map (a / 64 + ·)

/-- The memory key of partition `p` for a tier may be used (R195, R326, R327). -/
def State.memKey (s : State) (p tier : Nat) : Bool := (s.slot (8 + 2 * p + tier)).usable engMem p

/-! ## Rows (R204, R205) -/

/-- DETAIL of a memory event (R408): tier, partition, address (partition address, or physical when unassigned). -/
def State.memDetail (s : State) (tier pa : Nat) : Nat × Bytes :=
  match s.partAddr tier pa with
  | some (p, a) => (p, leBytes 1 tier ++ leBytes 1 p ++ leBytes 8 a)
  | none => (0xFF, leBytes 1 tier ++ leBytes 1 0xFF ++ leBytes 8 pa)

/-- A row is retired onto a spare row. With none left it stays in place, its poisoned lines for good, and its unit becomes
defective; the system area lies in no partition unit, so a row of it makes none (R204, R205). -/
def State.retireRow (s : State) (tier pa : Nat) : State :=
  let g := tier * 256 + groupOf tier pa
  let used := tget 0 s.mem.spares g
  if used < spareRows tier then
    let s1 := { s with
      mem := { s.mem with spares := tset g (used + 1) s.mem.spares, retired := rowKey tier pa :: s.mem.retired } }
    let d := s1.memDetail tier (rowFirst tier pa)
    (s1.countMod cntMemRetired).raise (ctlSrc tier pa) evMemRowRetired d.1 d.2
  else
    let bad := s.mem.poison.filter (fun k => keyTier k == tier && rowKey tier (keyAddr k) == rowKey tier pa)
    let s1 := { s with mem := { s.mem with stuck := bad.filter (fun k => !s.mem.stuck.contains k) ++ s.mem.stuck } }
    if inSystemArea tier pa then s1
    else
      let u := tier * 2 ^ 20 + pa / unitSize tier
      let s2 := { s1 with
        mem := { s1.mem with defective := if s1.mem.defective.contains u then s1.mem.defective else u :: s1.mem.defective } }
      let p := (s.memDetail tier pa).1
      s2.raise (ctlSrc tier pa) evMemUnitDefective p (leBytes 1 tier ++ leBytes 1 p ++ leBytes 2 (pa / unitSize tier))

/-- The latches of R213: physical address on the PF, partition address on the partition's VF, each only when free. -/
def State.latchErr (s : State) (tier pa status : Nat) : State :=
  let d := s.partAddr tier pa
  let part := match d with | some (p, _) => p | none => 0xFF
  let pf : ErrLatch := if s.mem.errPf.valid then s.mem.errPf else ⟨true, tier, part, status, pa⟩
  let vf := match d with
    | some (p, a) => if (tget errInit s.mem.errVf p).valid then s.mem.errVf else tset p ⟨true, tier, p, status, a⟩ s.mem.errVf
    | none => s.mem.errVf
  { s with mem := { s.mem with errPf := pf, errVf := vf } }

/-- A LASTING uncorrectable line (R200): poisoned, its row retired, event, latch, CNT_LASTING, and the rounds under the row
(R112). -/
def State.poisonLine (s : State) (tier pa : Nat) : State :=
  let d := s.memDetail tier pa
  let key := lineKey tier pa
  let s1 := { s with mem := { s.mem with poison := key :: s.mem.poison, upset := tdel key s.mem.upset } }
  let s2 := s1.countError (if d.1 = 0xFF then none else some d.1) cntLasting
  let s3 := s2.raise (ctlSrc tier pa) evMemPoison d.1 d.2
  ((s3.retireRow tier pa).latchErr tier pa stMemUncorrectable).shardFault tier pa

/-! ## Reads -/

/-- What an access brought: its bytes (a line that could not be read gives zeros), the first line that this access found
uncorrectable, the first that it found poisoned (partition addresses), whether a retry cleared an error, and whether the
memory key could not be used. -/
structure ReadRes where
  data  : Bytes
  uncor : Option Nat
  pois  : Option Nat
  trans : Bool
  nokey : Bool
deriving DecidableEq, Repr

/-- An access that has met nothing. -/
def readInit : ReadRes := ⟨[], none, none, false, false⟩

/-- An access that its memory key refuses: nothing is read or written (R327). -/
def keyRefused (n : Nat) : ReadRes := ⟨zeros n, none, none, false, true⟩

/-- ST_SEC_SLOT_ATTR where the key refused the access (R327), else ST_MEM_UNCORRECTABLE before ST_MEM_POISON (R409), before
the TRANSIENT status. -/
def ReadRes.status (r : ReadRes) : Nat :=
  if r.nokey then stSecSlotAttr
  else match r.uncor, r.pois with
    | some _, _ => stMemUncorrectable
    | none, some _ => stMemPoison
    | none, none => if r.trans then stTransientMem else stOk

/-- The first line concerned (R409). -/
def ReadRes.line (r : ReadRes) : Nat :=
  match r.uncor, r.pois with
  | some a, _ => a
  | none, some a => a
  | none, none => 0

/-- Every byte could be read. -/
def ReadRes.good (r : ReadRes) : Bool := r.uncor.isNone && r.pois.isNone && !r.nokey

/-- What two accesses of one operation met. -/
def ReadRes.join (r q : ReadRes) : ReadRes :=
  ⟨r.data ++ q.data, r.uncor.or q.uncor, r.pois.or q.pois, r.trans || q.trans, r.nokey || q.nokey⟩

/-- The controller reads the line at physical address `pa`, not poisoned, for partition `p` where one asks: an error that
lies in it is corrected and written back, cleared by the retry, or found LASTING (R199, R200). -/
def State.meetLine (s : State) (p : Option Nat) (tier pa : Nat) : State :=
  let clear := { s with mem := { s.mem with upset := tdel (lineKey tier pa) s.mem.upset } }
  match tfind s.mem.upset (lineKey tier pa) with
  | none => s
  | some .corrected => clear.countMod (if tier = 0 then cntMemCorrectedA else cntMemCorrectedB)
  | some .transient => clear.countError p cntTransient
  | some .lasting => s.poisonLine tier pa

/-- One line of a read (R199 to R201). -/
def readLine (p tier : Nat) (acc : State × ReadRes) (ln : Nat) : State × ReadRes :=
  let s := acc.1
  let r := acc.2
  let pa := s.phys p tier (ln * 64)
  if s.poisoned tier pa then (s, { r with pois := r.pois.or (some (ln * 64)) })
  else
    (s.meetLine (some p) tier pa,
      match tfind s.mem.upset (lineKey tier pa) with
      | some .transient => { r with trans := true }
      | some .lasting => { r with uncor := r.uncor.or (some (ln * 64)) }
      | _ => r)

/-- The bytes of a range as they read now: a poisoned line gives zeros. -/
def State.ptClean (s : State) (p tier a n : Nat) : Bytes :=
  (List.range n).map (fun i =>
    if s.poisoned tier (s.phys p tier (a + i)) then 0 else s.ptByte p tier (a + i))

/-- A read of `[a, a + n)` of partition `p`. -/
def State.memRead (s : State) (p tier a n : Nat) : State × ReadRes :=
  if s.memKey p tier then
    let r := (linesOf a n).foldl (readLine p tier) (s, readInit)
    (r.1, { r.2 with data := r.1.ptClean p tier a n })
  else (s, keyRefused n)

/-! ## Writes -/

/-- The bytes of line `ln` that a write of `bs` at `a` covers: first byte, bytes. -/
def linePiece (a : Nat) (bs : Bytes) (ln : Nat) : Nat × Bytes :=
  let lo := max a (ln * 64)
  let hi := min (a + bs.length) (ln * 64 + 64)
  (lo, (bs.drop (lo - a)).take (hi - lo))

/-- A line stored: its check field is set, an error or a poisoning in it is gone. -/
def State.storeLine (s : State) (tier pa : Nat) : State :=
  let key := lineKey tier pa
  { s with mem := { s.mem with
      poison := s.mem.poison.filter (· != key), upset := tdel key s.mem.upset
      written := spanAdd key (key + 1) s.mem.written } }

/-- One line of a write (R197, R201): a line written in part is read first and takes the bytes where it could be read; a
poisoned line written whole is cleared, unless it is poisoned for good (R205), and one written in part keeps its poison and
its contents. -/
def writeLine (p tier a : Nat) (bs : Bytes) (acc : State × ReadRes) (ln : Nat) : State × ReadRes :=
  let pa := acc.1.phys p tier (ln * 64)
  let piece := linePiece a bs ln
  let whole := decide (piece.2.length = 64) && !acc.1.mem.stuck.contains (lineKey tier pa)
  let x := if whole then acc else readLine p tier acc ln
  if x.1.poisoned tier pa && !whole then x
  else (State.putBytes p tier piece.1 piece.2 (x.1.storeLine tier pa), x.2)

/-- A write of `bs` at `a` of partition `p`. -/
def State.memWrite (s : State) (p tier a : Nat) (bs : Bytes) : State × ReadRes :=
  if s.memKey p tier then (linesOf a bs.length).foldl (writeLine p tier a bs) (s, readInit)
  else (s, keyRefused 0)

end Sys2Proof.Machine
end

