-- ==== Sys2Proof/Machine/Descriptor.lean ====
section
/-! DEFINITION. The checks that R258 makes of a descriptor or control command before any chapter's own: the row of the
first failing one, top to bottom. -/

namespace Sys2Proof.Machine

/-- Opcodes of the submission rings: the descriptors of every chapter. -/
def ringOpcodes : List Nat :=
  [0x00, 0x01, 0x02, 0x03, 0x04, 0x06, 0x10, 0x30, 0x31, 0x32, 0x33, 0x34, 0x35, 0x50, 0x51, 0x52]
    ++ [0x60, 0x61, 0x62, 0x63, 0x64, 0x68, 0x69, 0x70, 0x71, 0x72, 0x73, 0x74, 0x75, 0x76, 0x78, 0x79, 0x7A, 0x7B]
    ++ [0x80, 0x81, 0x82, 0x83, 0x90, 0x91, 0x92, 0x93, 0x94, 0x95, 0x96]

/-- The opcodes from 0x80 that a VF may use (R251, R310). -/
def vfMeridian : List Nat := [0x80, 0x81, 0x82]

/-- R251: the PF takes NOP and 0x80 to 0x9F; a VF takes 0x00 to 0x7F and MARK_SET, MARK_CANCEL, MARK_LIST, and only NOP
while its partition holds no resources. -/
def State.permitted (s : State) (f opc : Nat) : Bool :=
  if f = 0 then opc == 0 || decide (0x80 ≤ opc)
  else (decide (opc < 0x80) || vfMeridian.contains opc) && (opc == 0 || s.enabled (f - 1))

/-- Where a descriptor holds host addresses, module addresses (as address words) and LENGTH fields: offset and size
(R258). ROUND_ROSTER's LENGTH, 100 x COMMITTEE_N by R131, is not held to a multiple of 16 (notes/assumptions/20.md). -/
def alignFields (d : Bytes) : List (Nat × Nat) :=
  match byteAt d 0 with
  | 0x01 | 0x02 | 0x03 => [(8, 8), (16, 8), (24, 8)]
  | 0x04 => [(8, 8)]
  | 0x06 => if bit (byteAt d 10) 0 then [] else [(16, 8), (24, 8), (32, 8)]
  | 0x08 => [(16, 8), (24, 8), (32, 8)]
  | 0x10 => [(8, 8), (32, 8)]
  | 0x30 => [(16, 8), (24, 8), (32, 8)]
  | 0x32 | 0x35 => [(16, 8)]
  | 0x34 => [(16, 8), (24, 4)]
  | 0x50 => if bit (byteAt d 11) 0 then [] else [(16, 8), (24, 8)]
  | 0x51 => if bit (byteAt d 10) 0 then [] else [(16, 8), (24, 8)]
  | 0x52 => [(16, 8), (24, 8), (32, 8)]
  | 0x60 | 0x61 => [(16, 8), (24, 8), (32, 8)]
  | 0x62 => [(16, 8), (32, 8)]
  | 0x63 => [(16, 8)]
  | 0x68 => if bit (byteAt d 27) 1 then [] else [(8, 8)]
  | 0x69 => [(8, 8)]
  | 0x70 | 0x71 | 0x72 => [(16, 8), (24, 4)]
  | 0x75 => [(16, 8)]
  | 0x78 => if byteAt d 10 = 0 ∧ !bit (byteAt d 11) 2 then [(16, 8), (24, 8)] else if byteAt d 10 = 0 then [(24, 8)] else []
  | 0x79 => if byteAt d 9 = 0 then [(16, 8)] else []
  | 0x80 => if byteAt d 8 = 5 then [(32, 8)] else []
  | 0x82 => [(16, 8)]
  | 0x90 => [(16, 8), (24, 4)]
  | 0x93 => [(16, 8), (32, 4)]
  | 0x95 => if bit (byteAt d 8) 1 then [] else [(16, 8), (32, 4)]
  | 0x96 => [(16, 8)]
  | _ => []

def aligned (d : Bytes) : Bool := (alignFields d).all (fun f => le d f.1 f.2 % 16 == 0)

/-- LENGTH of R262: 16 to 2^34. -/
def dmaLenOk (n : Nat) : Bool := decide (16 ≤ n) && decide (n ≤ 2 ^ 34)

/-- The FIELD row of R258: the payloads of the host chapter, the round descriptors of R117. -/
def fieldOk (d : Bytes) : Bool :=
  match byteAt d 0 with
  | 0x00 => zeroAt d 8 56
  | 0x01 => zeroAt d 32 32 && (addrAt d 16).plain && dmaLenOk (le d 24 8)
  | 0x02 => zeroAt d 32 32 && (addrAt d 16).plain && dmaLenOk (le d 24 8)
  | 0x03 =>
    zeroAt d 32 32 && (addrAt d 8).plain && (addrAt d 16).plain && dmaLenOk (le d 24 8)
      && !((addrAt d 8).tier == (addrAt d 16).tier
        && overlaps (addrAt d 8).addr (le d 24 8) (addrAt d 16).addr (le d 24 8))
  | 0x04 => zeroAt d 32 32
  | 0x08 => decide (byteAt d 8 < 2) && zeroAt d 14 2 && zeroAt d 40 24
  | 0x09 => zeroAt d 8 56
  | 0x30 => decide (byteAt d 8 < 2) && zeroAt d 9 7 && zeroAt d 40 24
  | 0x31 | 0x33 => decide (byteAt d 8 < 2) && zeroAt d 9 55
  | 0x32 => decide (byteAt d 8 < 2) && zeroAt d 10 6 && zeroAt d 24 40
  | 0x34 | 0x35 => decide (byteAt d 8 < 2) && zeroAt d 9 7 && zeroAt d 28 36
  | _ => true

/-- The module ranges of a descriptor of this chapter, and of one whose chapter names no status for that range (R258):
offset of the address word, bytes. -/
def moduleRanges (d : Bytes) : List (Nat × Nat) :=
  match byteAt d 0 with
  | 0x01 | 0x02 => [(16, le d 24 8)]
  | 0x03 => [(8, le d 24 8), (16, le d 24 8)]
  | 0x06 =>
    if bit (byteAt d 10) 0 then []
    else (if bit (byteAt d 10) 1 then [] else [(16, le d 32 8 + 32)]) ++ [(24, le d 32 8)]
  | 0x70 | 0x71 | 0x72 => [(16, le d 24 4)]
  | 0x75 => [(16, 64)]
  | 0x79 => if byteAt d 9 = 0 then [(16, le d 12 4 * 2 ^ byteAt d 10 + 4 * le d 12 4)] else []
  | _ => []

/-- A module range whose address word names a plain address of a tier lies outside the units of the partition of function
`f`; any other address word is left to the checks of its chapter. -/
def State.spaceBad (s : State) (f : Nat) (d : Bytes) : Bool :=
  (moduleRanges d).any (fun e => (addrAt d e.1).plain && !s.inUnits (f - 1) (addrAt d e.1).tier (addrAt d e.1).addr e.2)

/-- The status of the first failing row of R258; 0 where none fails. `ring`: the descriptor came through a ring, a
trigger or a mark; else through the control window (R253). -/
def State.refusal (s : State) (f : Nat) (ring : Bool) (d : Bytes) : Nat :=
  let opc := byteAt d 0
  if (if ring then !ringOpcodes.contains opc else !(opc == 0x08 || opc == 0x09)) then stHifOpcode
  else if ring && !s.permitted f opc then stHifFunction
  else if decide (4 ≤ byteAt d 1) || !zeroAt d 2 2 || !fieldOk d then stHifField
  else if !aligned d then stHifAlign
  else if s.spaceBad f d then stHifSpace
  else stOk

end Sys2Proof.Machine
end

