-- ==== Sys2Proof/Machine/Clock.lean ====
section
/-! DEFINITION. The Meridian of the model (R304): it stands at `now`, in nanoseconds, and moves when the module idles or
when a timed event acts at its due time (notes/assumptions/1.md, 2.md). It never passes an entry of the Graticule that has
still to act (R309). -/

namespace Sys2Proof.Machine

/-! ## Entries that wait (R309, R363) -/

/-- The order in which entries of one time act: action, partition, slot (R309). -/
def Mark.rank (m : Mark) : Nat := (m.action * 256 + m.part) * 2 + m.slot

/-- `a` acts before `b` (R309). -/
def Mark.before (a b : Mark) : Bool :=
  decide (a.time < b.time) || (a.time == b.time && (decide (a.rank < b.rank) || (a.rank == b.rank && decide (a.seq < b.seq))))

/-- A ROUND_ABORT of round `r` accepted earlier than its RELEASE waits to run (R116). -/
def State.abortWaits (s : State) (r : Nat) : Bool :=
  s.ops.any (fun e => e.2.opcode == 0x31 && e.2.phase == .ready && 2 * (e.2.fn - 1) + byteAt e.2.bytes 8 % 2 == r
    && decide (e.2.aux < (s.round r).pol.tRelease))

/-- What holds an entry back when its time has come: a DISPATCH or EVENT mark that falls from 10 ms before a FIRMWARE mark to
1 ms after it waits until that mark has ended (R363); a RELEASE waits for its round's drain, at most 20 ms long, and for a
ROUND_ABORT accepted earlier (R108, R116). -/
def State.heldMark (s : State) (m : Mark) : Bool :=
  ((m.action == 5 || m.action == 6) && s.mrd.marks.any (fun (e : Nat × Mark) => e.2.action == 9 && e.2.st != .reserved
    && decide (e.2.time ≤ m.time + 10 * msNs) && decide (m.time ≤ e.2.time + 1 * msNs)))
  || (m.action == 4 && ((s.round (2 * m.part + m.slot)).draining || s.abortWaits (2 * m.part + m.slot)))

/-- The entry has not acted and is no reserved one. -/
def Mark.waits (m : Mark) : Bool := m.st == .set || m.st == .arming || m.st == .armed

/-- The entries that have still to act and that nothing holds back. -/
def State.waiting (s : State) : List (Nat × Mark) := s.mrd.marks.filter (fun e => e.2.waits && !s.heldMark e.2)

/-- Of two entries the one that acts first. -/
def firstOf (a : Option (Nat × Mark)) (e : Nat × Mark) : Option (Nat × Mark) :=
  match a with
  | some x => if e.2.before x.2 then some e else a
  | none => some e

/-- The entry that acts next. -/
def State.nextMark (s : State) : Option (Nat × Mark) := s.waiting.foldl firstOf none

/-- A waiting entry's time has come. -/
def State.markDue (s : State) : Bool := s.waiting.any (fun e => decide (e.2.time ≤ s.now))

/-! ## Time -/

/-- The last nanosecond that comes before every entry that has still to act; `t` where that is earlier, or where the
Graticule does not act (R309). -/
def State.beforeMark (s : State) (t : Nat) : Nat :=
  if s.pwr.phase = .run then
    match s.nextMark with
    | some (_, m) => min t (m.time - 1)
    | none => t
  else t

/-- `s` at time `t`, or as it stands when `t` has passed; an event of the module does not come later than an entry that has
still to act, so it comes before that entry's nanosecond (R309, notes/assumptions/2.md). -/
def State.atLeast (s : State) (t : Nat) : State := { s with now := max s.now (s.beforeMark t) }

/-- One nanosecond passes. While a correction is pending the rate is slewed by 500 ppm: every 2,000 ns the count gains or
loses one (R307). -/
def State.tick (s : State) : State :=
  let m := s.mrd
  if m.slew = 0 then { s with now := s.now + 1 }
  else if m.slewAt + 1 < 2000 then { s with now := s.now + 1, mrd := { m with slewAt := m.slewAt + 1 } }
  else if 0 < m.slew then { s with now := s.now + 2, mrd := { m with slewAt := 0, slew := m.slew - 1 } }
  else { s with mrd := { m with slewAt := 0, slew := m.slew + 1 } }

end Sys2Proof.Machine
end

