-- ==== Sys2Proof/Machine/MarkOps.lean ====
section
/-! DEFINITION. The Graticule as shared operations (R309 to R311): entries, their order, the entries of a round, the act of
an armed entry, outcome events. -/

namespace Sys2Proof.Machine

/-- Entries of the Graticule (R309). -/
def markCount : Nat := 4096

/-- The free entries (R304). -/
def State.freeMarks (s : State) : Nat := markCount - s.mrd.marks.length

def State.mark (s : State) (i : Nat) : Option Mark := tfind s.mrd.marks i

def State.setMark (s : State) (i : Nat) (m : Mark) : State := { s with mrd := { s.mrd with marks := tset i m s.mrd.marks } }

def State.delMark (s : State) (i : Nat) : State := { s with mrd := { s.mrd with marks := tdel i s.mrd.marks } }

/-- The lowest free entry. -/
def State.newEntry (s : State) : Nat :=
  ((List.range (s.mrd.marks.length + 1)).find? (fun i => (tfind s.mrd.marks i).isNone)).getD 0

/-- A mark in SET with no more than its time, action, partition, slot and TAG. -/
def plainMark (time action part slot tag : Nat) : Mark :=
  ⟨time, action, part, slot, tag, .set, 0, 0, 0, 0, [], [], [], none, false, 0, []⟩

/-- `m` placed in the lowest free entry, after every entry set before it. -/
def State.addMark (s : State) (m : Mark) : State :=
  let i := s.newEntry
  { s with mrd := { s.mrd with marks := tset i { m with seq := s.mrd.nextSeq } s.mrd.marks, nextSeq := s.mrd.nextSeq + 1 } }

/-- Some entry is still to act before `m`. -/
def State.markBehind (s : State) (m : Mark) : Bool := s.waiting.any (fun e => e.2.before m)

/-- Entry `m` acts next: it is ARMED and no waiting entry acts before it. -/
def State.markNext (s : State) (m : Mark) : Bool :=
  s.pwr.phase == .run && m.st == .armed && !s.heldMark m && !s.markBehind m

/-- The entry of a round's mark. -/
def State.roundMark (s : State) (p slot action : Nat) : Option (Nat × Mark) :=
  s.mrd.marks.find? (fun (e : Nat × Mark) => e.2.action == action && e.2.part == p && e.2.slot == slot)

/-- The entries of a round go with it (R310). -/
def State.dropRoundMarks (s : State) (p slot : Nat) : State :=
  let mine := fun (e : Nat × Mark) => decide (e.2.action ≤ 4) && e.2.part == p && e.2.slot == slot
  { s with mrd := { s.mrd with marks := s.mrd.marks.filter (fun e => !mine e) } }

/-- An outcome event of a mark (R311, R408): TAG, action, partition, then the unit where one is named. -/
def State.markEvent (s : State) (code : Nat) (m : Mark) (unit : Bytes) : State :=
  s.raise srcMeridian code m.part (leBytes 4 m.tag ++ leBytes 1 m.action ++ leBytes 1 m.part ++ unit)

end Sys2Proof.Machine
end

