-- ==== Sys2Proof/Machine/TrigOps.lean ====
section
/-! DEFINITION. Trigger counters and stored descriptors (R297, R298), and the completion of a fabric descriptor, which counts
at one; the bookkeeping of messages that the module initiates. -/

namespace Sys2Proof.Machine

/-- Trigger counter `c` of partition `p`. -/
def State.trigger (s : State) (p c : Nat) : Nat := tget 0 s.fab.trig (p * 1024 + c)

/-- (i32)(counter − THRESHOLD) ≥ 0. -/
def reached (v thr : Nat) : Bool := decide ((v + 2 ^ 32 - thr % 2 ^ 32) % 2 ^ 32 < 2 ^ 31)

/-- A stored descriptor is read: its bytes, and the status that it completes with where they cannot be read (R200, R201,
notes/assumptions/76.md). -/
def State.readStored (s : State) (p tier a : Nat) : State × Bytes × Nat :=
  let r := s.memRead p tier a 64
  (r.1, r.2.data, if r.2.good then stOk else r.2.status)

/-- An armed descriptor fires: the stored descriptor is read and waits for dispatch behind what waits on the ring. -/
def State.fire (s : State) (a : Armed) : State :=
  let f := a.part + 1
  let x := s.readStored a.part a.tier a.addr
  let h := x.1.fn f
  let n := if h.rings = .active then ringLive h.rs.sqLog h.rs.sqTail h.rs.sqHead else 0
  let s1 := x.1.setFn f { h with fetched := h.fetched ++ [⟨n, x.2.1, .trigger, x.2.2⟩] }
  { s1 with fab := { s1.fab with armed := s1.fab.armed.filter (fun (x : Armed) => x.seq != a.seq) } }

/-- A trigger counter takes a value: what it reaches fires, in the order of arming. -/
def State.setTrigger (s : State) (p c v : Nat) : State :=
  let s1 := { s with fab := { s.fab with trig := tset (p * 1024 + c) (v % 2 ^ 32) s.fab.trig } }
  (s.fab.armed.filter (fun (a : Armed) => a.part == p && a.counter == c && reached v a.thr)).foldl State.fire s1

/-- One more at the counter that `n` names: a counter number plus one, or 0 for none. -/
def State.bump (s : State) (p n : Nat) : State :=
  if n = 0 ∨ 1024 < n then s else s.setTrigger p (n - 1) (s.trigger p (n - 1) + 1)

/-- A descriptor completes; one of opcodes 0x70 to 0x73 counts at its CNT_ON_DONE, whatever its status. -/
def State.finishFab (s : State) (id status : Nat) (detail : Bytes := []) : State :=
  match s.op id with
  | none => s
  | some o =>
    let s1 := s.finish id status detail
    if o.fn ≠ 0 ∧ 0x70 ≤ o.opcode ∧ o.opcode ≤ 0x73 then s1.bump (o.fn - 1) (le o.bytes 10 2) else s1

/-! ## Messages that this module initiates (R281, R284) -/

/-- Payload bytes of a packet. -/
def pktBytes : Nat := 4096

def maxMessage : Nat := 268435456

/-- Packets of a message. -/
def packetCount (len : Nat) : Nat := ceilDiv len pktBytes

/-- Bytes of packet `i` of a message. -/
def packetLen (len i : Nat) : Nat := min pktBytes (len - pktBytes * i)

/-- An ID of endpoint `p`. -/
def idKey (p id : Nat) : Nat := p * 65536 + id

/-- The message runs under an ID of this endpoint. -/
def MsgKind.own (k : MsgKind) : Bool :=
  match k with
  | .send => true
  | .write => true
  | .readReq => true
  | .flush => true
  | _ => false

/-- Bytes of a message's packet on the wire. -/
def Msg.bytesOf (m : Msg) (i : Nat) : Nat :=
  match m.kind with
  | .send => packetLen m.len i
  | .write => packetLen m.len i
  | .readResp => packetLen m.len i
  | _ => 0

/-- Bytes in flight leave the message's congestion context (R296). -/
def State.landed (s : State) (m : Msg) (n : Nat) : State :=
  match m.ctx with
  | none => s
  | some c =>
    match tfind s.fab.ctxs c with
    | none => s
    | some x => { s with fab := { s.fab with ctxs := tset c { x with flight := x.flight - n } s.fab.ctxs } }

def Msg.inFlight (m : Msg) : Nat := (m.unacked.map (fun (e : Nat × Nat) => m.bytesOf e.1)).sum

/-- The wait of a message for a congestion context ends: CNT_FAB_CC_WAIT counts its nanoseconds (R296, R406). -/
def State.countCcWait (s : State) (m : Msg) : State :=
  match m.ccWait with
  | none => s
  | some t => s.count (some m.part) cntFabCcWait (s.now - t)

/-- A message goes; its ID is free. -/
def State.removeMsg (s : State) (i : Nat) : State :=
  match tfind s.fab.msgs i with
  | none => s
  | some m =>
    let s1 := (s.countCcWait m).landed m m.inFlight
    { s1 with
      fab := { s1.fab with
        msgs := tdel i s1.fab.msgs
        idFree := if m.kind.own then s1.fab.idFree ++ [idKey m.part m.msgId] else s1.fab.idFree } }

end Sys2Proof.Machine
end

