-- ==== Sys2Proof/Machine/HostRings.lean ====
section
/-! DEFINITION. Rings and the control window (R252 to R261, R265 to R268): the commit of a control command, creation and
deletion of rings, doorbells, fetch, dispatch, vectors; the detachment that driver loss and resets share. -/

namespace Sys2Proof.Machine

/-- Phase RUN (R376). -/
def State.isRun (s : State) : Bool := s.pwr.phase == .run

/-- The scheduler core runs: LOAD reads RUNNING in phase RUN (R360). -/
def State.serving (s : State) : Bool := s.isRun && s.fw.load == 4

/-! ## Held and waiting records (R268) -/

/-- Records move from the held area, the stuck completions and the waiting completions into the completion ring while
it has room, in that order; stuck ones take held space as it frees. -/
def Rep.flushC : Nat → Nat → Rep → Rep
  | 0, _, r => r
  | fuel + 1, f, r =>
    let h := r.fn f
    if !h.live then r
    else if ringRoom h.rs.cqLog h.rs.cqProd h.rs.cqHead then
      match h.heldC, h.stuck, h.waitC with
      | c :: cs, _, _ => Rep.flushC fuel f ((r.setFn f { h with heldC := cs }).writeCpl f c)
      | [], c :: cs, _ => Rep.flushC fuel f (((r.setFn f { h with stuck := cs }).writeCpl f c).freeOp c.op)
      | [], [], c :: cs => Rep.flushC fuel f (((r.setFn f { h with waitC := cs }).writeCpl f c).freeOp c.op)
      | [], [], [] => r
    else
      match h.stuck with
      | c :: cs =>
        if h.heldC.length < heldMax then
          Rep.flushC fuel f
            ((r.setFn f { h with stuck := cs, heldC := h.heldC ++ [{ c with op := none }] }).freeOp c.op)
        else r
      | [] => r

/-- Held event records move into the event ring while it has room. -/
def Rep.flushE : Nat → Nat → Rep → Rep
  | 0, _, r => r
  | fuel + 1, f, r =>
    let h := r.fn f
    if h.live ∧ ringRoom h.rs.eqLog h.rs.eqProd h.rs.eqHead then
      match h.heldE with
      | e :: es => Rep.flushE fuel f ((r.setFn f { h with heldE := es }).writeEv f e)
      | [] => r
    else r

def Rep.flush (f : Nat) (r : Rep) : Rep :=
  let h := r.fn f
  (r.flushC (2 * (h.heldC.length + h.stuck.length + h.waitC.length) + 1) f).flushE (h.heldE.length + 1) f

/-- Held records discarded and counted; stuck completions then take the space (R268). -/
def Rep.discardHeld (f : Nat) (r : Rep) : Rep :=
  let h := r.fn f
  let n := h.heldC.length + h.heldE.length
  let r1 := r.setFn f { h with heldC := [], heldE := [] }
  let r2 := if n = 0 then r1 else r1.count (pageOf f) (hifIdx f 3) n
  h.stuck.foldl (fun r c =>
    let g := r.fn f
    if g.heldC.length < heldMax then
      (r.setFn f { g with heldC := g.heldC ++ [{ c with op := none }], stuck := g.stuck.drop 1 }).freeOp c.op
    else r) r2

/-! ## Detachment (R265, R267, R269 to R271) -/

/-- Completions that waited for ring space are held from now on (R267). -/
def Rep.holdWaiting (f : Nat) (r : Rep) : Rep :=
  let h := r.fn f
  h.waitC.foldl (fun r c => r.placeCpl f c) (r.setFn f { h with waitC := [] })

/-- A cause of driver loss, or a reset, on function `f`: ACTIVE rings become DETACHED, DELETING rings stay DELETING, and
the cause is recorded; other rings do not change. EV_HIF_DRIVER_LOST names the function and the cause (R265). -/
def Rep.detach (f cause : Nat) (r : Rep) : Rep :=
  let h := r.fn f
  let ev := fun (r : Rep) => r.raise srcHost evHifDriverLost 0xFF (leBytes 1 f ++ leBytes 1 cause)
  match h.rings with
  | .active => ev ((r.setFn f { h with rings := .detached, cause := cause }).holdWaiting f)
  | .deleting => ev ((r.setFn f { h with lost := true, cause := cause }).holdWaiting f)
  | _ => r

/-! ## The control window (R252, R253) -/

/-- The 64 bytes of the staged words. -/
def CmdWin.bytes (w : CmdWin) : Bytes := (List.range 16).flatMap (fun j => leBytes 4 (tget 0 w.words j).toNat)

/-- A write of 1 to HIF_CMD_COMMIT.GO: the staged words are copied and the copy executes; while BUSY it is lost (R252,
R253). In RETIRED every control command completes with ST_SEC_RETIRED (R345). Until every core runs the window accepts
nothing (R360). -/
def State.commit (s : State) (f : Nat) : State :=
  if !s.serving then s
  else
    let h := s.fn f
    if h.win.busy then s.setFn f { h with win := { h.win with lost := true } }
    else
      let d := h.win.bytes
      let id := s.nextOp
      let st := if s.sec.lifecycle = 3 then stSecRetired else s.refusal f false d
      let o : Op := ⟨f, 0, d, .control, .none, s.glb.det, .ready, 0, [], s.now⟩
      let s1 := { s.setFn f { h with win := { h.win with busy := true, opcode := byteAt d 0 } } with
        ops := tset id o s.ops, nextOp := id + 1 }
      if st = stOk then s1 else s1.finish id st

/-- The control command of function `f` that waits to run with opcode `opc`. -/
def State.control (s : State) (f opc : Nat) (ph : OpPhase) : Option Nat :=
  (s.ops.find? (fun e => e.2.fn == f && e.2.origin == .control && e.2.opcode == opc && e.2.phase == ph)).map (·.1)

/-- Ranges of R254: entries 2^4 to 2^16, COALESCE_N 1 to 255, bases of 4,096. -/
def ringFieldsOk (d : Bytes) : Bool :=
  [9, 10, 11].all (fun i => decide (4 ≤ byteAt d i) && decide (byteAt d i ≤ 16)) && decide (1 ≤ byteAt d 12)
    && [16, 24, 32].all (fun i => le d i 8 % 4096 == 0)

/-- The rings that a RING_CREATE payload asks for, every index at 0. -/
def ringSetOf (d : Bytes) : RingSet :=
  ⟨byteAt d 9, byteAt d 10, byteAt d 11, le d 16 8, le d 24 8, le d 32 8, 0, 0, 0, 0, true, 0, 0, true, byteAt d 12, byteAt d 13⟩

/-- Vector 2, once, when an ingest interrupt arose while the rings could not signal and its flag is still set (R261). -/
def State.lateIngest (s : State) (f : Nat) : State :=
  let h := s.fn f
  let s1 := s.setFn f { h with ingIrq := 0 }
  if f ≠ 0 ∧ h.ingIrq &&& (tget ingestInit s.ingest (f - 1)).istat ≠ 0 then onRep (fun r => r.vector f 2) s1 else s1

/-- RING_CREATE (R254, R268): with ADOPT the held records go into the new rings, without it they are discarded. -/
def execRingCreate (fn : Nat) (s : State) : Res :=
  .next (match s.control fn 0x08 .ready with
    | none => s
    | some id =>
      match s.op id with
      | none => s
      | some o =>
        let h := s.fn fn
        if !ringFieldsOk o.bytes then s.finish id stHifRing
        else if h.rings = .active ∨ h.rings = .deleting then s.finish id stHifRingState
        else
          let adopt := bit (byteAt o.bytes 8) 0
          let s1 := if adopt then s else onRep (Rep.discardHeld fn) s
          let s2 := s1.setFn fn
            { s1.fn fn with
              rings := .active, lost := false, rs := ringSetOf o.bytes, unsig := 0, unsigAt := 0, ev1Pend := false, hbFrom := s.now
              fetched := (s1.fn fn).fetched.map (fun (x : Fetched) => if x.src = .trigger then { x with idx := 0 } else x) }
          ((onRep (Rep.flush fn) s2).finish id stOk).lateIngest fn)

/-- RING_DELETE (R254, R268): the rings become DELETING, fetching stops, held records are discarded. Rings that were
DETACHED reach no host memory while they delete. -/
def execRingDelete (fn : Nat) (s : State) : Res :=
  .next (match s.control fn 0x09 .ready with
    | none => s
    | some id =>
      match s.op id with
      | none => s
      | some o =>
        let h := s.fn fn
        if h.rings = .disabled ∨ h.rings = .deleting then s.finish id stHifRingState
        else
          let s1 := onRep (Rep.discardHeld fn) s
          (s1.setFn fn { s1.fn fn with rings := .deleting, lost := h.rings == .detached }).running id o)

/-- A fetched descriptor of function `f` is unfinished, or its record waits for ring space. -/
def State.outstanding (s : State) (f : Nat) : Bool :=
  !(s.fn f).fetched.isEmpty || !(s.fn f).waitC.isEmpty
    || s.ops.any (fun e => e.2.fn == f && e.2.origin != .control && e.2.phase != .done)

/-- The fetched descriptors have finished and their completions are written: the rings become DISABLED and RING_DELETE
completes in the control window (R254, R265). -/
def execRingDeleteDone (fn : Nat) (s : State) : Res :=
  .next (match s.control fn 0x09 .running with
    | none => s
    | some id =>
      if (s.fn fn).rings = .deleting ∧ !s.outstanding fn then
        (s.setFn fn { s.fn fn with rings := .disabled, lost := false, rs := ringSetInit }).finish id stOk
      else s)

/-! ## Doorbells (R255) -/

/-- A bad doorbell: ignored and counted. -/
def State.badDoorbell (s : State) (f : Nat) : State := s.count (pageOf f) (hifIdx f 0) 1

/-- The doorbells act while the rings are ACTIVE or DELETING. -/
def HifFn.rung (h : HifFn) : Bool := h.rings == .active || h.rings == .deleting

/-- HIF_SQ_TAIL: the new producer index of the submission ring. -/
def execHifSqTailWrite (fn : Nat) (v : Word) (s : State) : Res :=
  .next (if !s.isRun then s
    else
      let h := s.fn fn
      let i := v.toNat % 65536
      if !h.rung ∨ 2 ^ h.rs.sqLog ≤ i then s.badDoorbell fn
      else s.setFn fn { h with rs := { h.rs with sqTail := i } })

/-- HIF_CQ_HEAD: completion records are released; held and waiting ones follow. -/
def execHifCqHeadWrite (fn : Nat) (v : Word) (s : State) : Res :=
  .next (if !s.isRun then s
    else
      let h := s.fn fn
      let i := v.toNat % 65536
      if !h.rung ∨ 2 ^ h.rs.cqLog ≤ i ∨ ringLive h.rs.cqLog h.rs.cqProd h.rs.cqHead < ringLive h.rs.cqLog i h.rs.cqHead then
        s.badDoorbell fn
      else onRep (Rep.flush fn) (s.setFn fn { h with rs := { h.rs with cqHead := i } }))

/-- HIF_EQ_HEAD: event records are released; held ones follow. -/
def execHifEqHeadWrite (fn : Nat) (v : Word) (s : State) : Res :=
  .next (if !s.isRun then s
    else
      let h := s.fn fn
      let i := v.toNat % 65536
      if !h.rung ∨ 2 ^ h.rs.eqLog ≤ i ∨ ringLive h.rs.eqLog h.rs.eqProd h.rs.eqHead < ringLive h.rs.eqLog i h.rs.eqHead then
        s.badDoorbell fn
      else onRep (Rep.flush fn) (s.setFn fn { h with rs := { h.rs with eqHead := i } }))

/-! ## Fetch and dispatch (R256, R266) -/

/-- Descriptors of the ring fetched ahead of dispatch. -/
def HifFn.ahead (h : HifFn) : Nat := (h.fetched.filter (fun x => x.src == .ring)).length

/-- How many entries a fetch may bring: 64 ahead, up to the tail. -/
def HifFn.canFetch (h : HifFn) : Nat := min (64 - h.ahead) (ringLive h.rs.sqLog h.rs.sqTail h.rs.sqHead)

/-- A ring descriptor joins those fetched: behind every other, but ahead of fired ones that came after it (R298). -/
def queueFetched : List Fetched → Fetched → List Fetched
  | [], x => [x]
  | y :: ys, x =>
    if y.src = .trigger ∧ y.idx ≠ 0 then
      x :: { y with idx := y.idx - 1 } :: ys.map (fun (z : Fetched) =>
        if z.src = .trigger ∧ z.idx ≠ 0 then { z with idx := z.idx - 1 } else z)
    else y :: queueFetched ys x

/-- A fetch has brought these descriptors from the consumer index; those beyond what the rule lets it fetch are not its. -/
def execDescriptorFetchDone (fn : Nat) (descs : List Bytes) (s : State) : Res :=
  .next (let h := s.fn fn
    if s.serving ∧ h.rings = .active then
      let ds := descs.take h.canFetch
      let new := ds.mapIdx (fun i d => Fetched.mk ((h.rs.sqHead + i) % 2 ^ h.rs.sqLog) (slice d 0 64) .ring 0)
      s.setFn fn { h with
        fetched := new.foldl queueFetched h.fetched
        rs := { h.rs with sqHead := (h.rs.sqHead + ds.length) % 2 ^ h.rs.sqLog } }
    else s)

/-- Tokens of partition `p`'s guaranteed 256 that its descriptors hold. -/
def State.ownHeld (s : State) (p : Nat) : Nat := (s.ops.filter (fun e => e.2.fn == p + 1 && e.2.tok == .own)).length

/-- The rounds of partition `p` that expand: each takes one of the 256 (R15). -/
def State.expanding (s : State) (p : Nat) : List Nat :=
  ([0, 1].map (2 * p + ·)).filter (fun r => (s.round r).unmask == .expanding)

/-- Tokens of partition `p`'s guaranteed 256 that are held or that an expansion waits for: no descriptor takes one while an
expansion waits for it (R15). -/
def State.ownUsed (s : State) (p : Nat) : Nat := s.ownHeld p + (s.expanding p).length

/-- The expansion of round `r` holds its token of the guaranteed 256: it takes the first that is free once it was handed over,
and of two expansions the one handed over first goes first (R15). -/
def State.expandTok (s : State) (r : Nat) : Bool :=
  let x := s.round r
  let before := (s.expanding (r / 2)).filter (fun k =>
    decide ((s.round k).ahead < x.ahead) || ((s.round k).ahead == x.ahead && decide (k ≤ r)))
  decide (s.ownHeld (r / 2) + before.length ≤ 256)

def State.poolUsed (s : State) : Nat := (s.ops.filter (fun e => e.2.tok == .pool)).length

/-- The pool: 16,384 − 256 for each enabled partition (R320). -/
def State.poolSize (s : State) : Nat := 16384 - 256 * s.enabledCount

/-- The token that the next descriptor of function `f` takes: own first, then pool; none when it must wait (R256). -/
def State.nextTok (s : State) (f : Nat) : Tok :=
  if f ≠ 0 ∧ s.enabled (f - 1) ∧ s.ownUsed (f - 1) < 256 then .own
  else if s.poolUsed < s.poolSize then .pool else .none

/-- A FIRMWARE mark from its arming to its end stops dispatch on every function (R363). -/
def State.fwHold (s : State) : Bool :=
  s.mrd.marks.any (fun e => e.2.action == 9 && (e.2.st == .arming || e.2.st == .armed || e.2.st == .applied))

/-- Dispatch of function `f` is stopped: its partition arms a PARTITION mark, or units that it holds are being blanked (R319),
or firmware changes. -/
def State.dispatchHeld (s : State) (f : Nat) : Bool :=
  s.fwHold || (f != 0 && ((s.part (f - 1)).stop || ((s.part (f - 1)).blanking && s.enabled (f - 1))))

/-- A fired trigger's descriptor must name 0x70 to 0x73 (R298). -/
def firedStatus (d : Bytes) : Nat := if 0x70 ≤ byteAt d 0 ∧ byteAt d 0 ≤ 0x73 then stOk else stHifOpcode

/-- A DISPATCH mark's stored descriptor must be a FLASH_WRITE or a CHECKPOINT (R309). -/
def markStatus (d : Bytes) : Nat := if byteAt d 0 = 0x61 ∨ byteAt d 0 = 0x63 then stOk else stHifOpcode

/-- The further check of a descriptor by where it came from. -/
def Fetched.srcStatus (x : Fetched) : Nat :=
  match x.src with
  | .trigger => firedStatus x.bytes
  | .mark => markStatus x.bytes
  | _ => stOk

/-- The status of a descriptor at dispatch: RETIRED (R345), FAULT_SECURE (R343), a stored one that could not be read, the
opcodes that its source permits, then the rows of R258. -/
def State.dispatchStatus (s : State) (f : Nat) (x : Fetched) : Nat :=
  if s.sec.lifecycle = 3 then stSecRetired
  else if s.sec.lifecycle = 2 then stSecFaultSecure
  else if x.err ≠ stOk then x.err
  else if x.srcStatus ≠ stOk then x.srcStatus
  else s.refusal f true x.bytes

/-- DETAIL of a descriptor that its dispatch refuses (R259): a TILE_RUN names no Panel, a ROUND_OPEN its round ID. -/
def refusedDetail (f : Nat) (d : Bytes) : Bytes :=
  match byteAt d 0 with
  | 0x10 => [0, 0xFF]
  | 0x30 => if f ≠ 0 ∧ byteAt d 8 < 2 then leBytes 1 (2 * (f - 1) + byteAt d 8) else []
  | _ => []

/-- A descriptor of function `f`'s ring is unfinished: one that came through the ring, or a fired one, which joined its order
(R256, R298). -/
def State.ringBusy (s : State) (f : Nat) : Bool :=
  s.ops.any (fun e => e.2.fn == f && (e.2.origin == .ring || e.2.origin == .trigger) && e.2.phase != .done)

/-- A descriptor dispatched with token `t`: it becomes a ticket, or completes at once when refused. -/
def State.dispatch (s : State) (f : Nat) (x : Fetched) (t : Tok) : State :=
  let id := s.nextOp
  let st := s.dispatchStatus f x
  let idx := if x.src = .ring then x.idx else 0
  let s1 := { s with ops := tset id ⟨f, idx, x.bytes, x.src, t, s.glb.det, .ready, 0, [], s.now⟩ s.ops, nextOp := id + 1 }
  if st = stOk then s1 else s1.finishFab id st (refusedDetail f x.bytes)

/-- The head of the fetched descriptors is dispatched once a token and FENCE permit; a mark whose time has come acts before
it (R309). Its acceptance time is kept in `aux` (R98). -/
def execDescriptorDispatch (fn : Nat) (s : State) : Res :=
  .next (let h := s.fn fn
    match h.fetched with
    | [] => s
    | x :: xs =>
      let fence := bit (byteAt x.bytes 1) 0
      let busy := s.ringBusy fn
      let early := x.src = .trigger ∧ x.idx ≠ 0 ∧ h.rings = .active
      if !s.serving ∨ early ∨ s.markDue ∨ s.dispatchHeld fn ∨ (fence ∧ busy) ∨ s.nextTok fn = .none then s
      else (s.setFn fn { h with fetched := xs }).dispatch fn x (s.nextTok fn))

/-! ## Vectors (R261) -/

/-- COALESCE_US after the oldest unsignalled completion record: vector 0. -/
def execCoalesceTimerExpiry (fn : Nat) (s : State) : Res :=
  .next (let h := s.fn fn
    if h.unsig ≠ 0 ∧ h.rs.coUs ≠ 0 ∧ h.live then
      let s1 := (s.atLeast (h.unsigAt + h.rs.coUs * usNs)).setFn fn { h with unsig := 0 }
      onRep (fun r => r.vector fn 0) s1
    else s)

/-- The end of the 10 µs after a vector 1: the events that came meanwhile are signalled once, unless the rings can signal
nothing. -/
def execEventVectorHoldoffEnd (fn : Nat) (s : State) : Res :=
  .next (let h := s.fn fn
    match h.ev1Pend, h.ev1At with
    | true, some t =>
      let s1 := s.atLeast (t + 10 * usNs)
      if h.live then onRep (fun r => r.vector fn 1) (s1.setFn fn { h with ev1Pend := false, ev1At := some s1.now })
      else s1.setFn fn { h with ev1Pend := false }
    | _, _ => s)

end Sys2Proof.Machine
end

