-- ==== Sys2Proof/Machine/Flags.lean ====
section
/-! DEFINITION. Flag computations that several families share: the determinism record (R21, R93), the ingest flags and
their interrupt (R162). -/

namespace Sys2Proof.Machine

/-! ## GLB_DET_STAT (R21) -/

abbrev detStochastic : Nat := 0
abbrev detSplit : Nat := 1
abbrev detSat : Nat := 2
abbrev detKBound : Nat := 3
abbrev detHeadroom : Nat := 4

/-- One flag set in the copy of the partition's VF and in the PF copy; EV_GLB_DET_WITHDRAWN when the VF copy's flag
changes from 0 to 1. -/
def State.setDet (s : State) (p tag k : Nat) : State :=
  let old := tget 0 s.glb.detVf p
  let s1 := { s with glb := { s.glb with detVf := tset p (old ||| 2 ^ k) s.glb.detVf, detPf := s.glb.detPf ||| 2 ^ k } }
  if bit old k then s1 else s1.raise srcGlobal evGlbDetWithdrawn p (leBytes 1 p ++ leBytes 4 tag)

/-- The flags of an operation issued with DETERMINISTIC set, each with its condition (R93). -/
def State.setDets (s : State) (det : Bool) (p tag : Nat) (l : List (Nat × Bool)) : State :=
  if det then l.foldl (fun s e => if e.2 then s.setDet p tag e.1 else s) s else s

/-! ## ING_ISTAT (R162) -/

abbrev ingCrc : Nat := 0
abbrev ingFormat : Nat := 1
abbrev ingTag : Nat := 2
abbrev ingRing : Nat := 3
abbrev ingClient : Nat := 4
abbrev ingSegment : Nat := 5
abbrev ingPadding : Nat := 6
abbrev ingAlive : Nat := 7
abbrev ingDuplicate : Nat := 8
abbrev ingOverrun : Nat := 9
abbrev ingQreset : Nat := 10

def State.ing (s : State) (p : Nat) : Ingest := tget ingestInit s.ingest p

def State.setIng (s : State) (p : Nat) (g : Ingest) : State := { s with ingest := tset p g s.ingest }

/-- The ingest interrupt of partition `p` for flag `k`: vector 2 of its VF, or remembered while the rings cannot signal
(R261). -/
def State.ingInterrupt (s : State) (p k : Nat) : State :=
  let h := s.fn (p + 1)
  if h.rings = .active ∨ h.rings = .deleting then onRep (fun r => r.vector (p + 1) 2) s
  else s.setFn (p + 1) { h with ingIrq := h.ingIrq ||| 2 ^ k }

/-- Flag `k` of ING_ISTAT set: an enabled flag that changes from 0 to 1 signals the interrupt and raises EV_ING_CHECK. -/
def State.setIngFlag (s : State) (p k : Nat) : State :=
  let g := s.ing p
  let s1 := s.setIng p { g with istat := g.istat ||| 2 ^ k }
  if bit g.ien.toNat k && !bit g.istat k then (s1.ingInterrupt p k).raise (srcCheck p) evIngCheck p (leBytes 1 k)
  else s1

end Sys2Proof.Machine
end

