-- ==== Sys2Proof/Machine/GateOps.lean ====
section
/-! DEFINITION. The extents of the hold-up gate (R237, R239): which is admitted next, the time that any waits, extents that
join and leave. -/

namespace Sys2Proof.Machine

def State.setFlc (s : State) (f : Flash) : State := { s with flc := f }

def extentMax : Nat := 2 ^ 24

/-- The extent that the gate admits next: the system class first, then in order of arrival. -/
def Flash.nextExtent (f : Flash) : Option (Nat × Extent) :=
  let w := f.extents.filter (fun (e : Nat × Extent) => !e.2.started)
  match w.find? (fun (e : Nat × Extent) => e.2.system) with
  | some e => some e
  | none => w.head?

/-- The time during which any extent waits is counted (R239). -/
def State.settleWait (s : State) : State :=
  match s.flc.nextExtent, s.flc.waitFrom with
  | some _, none => s.setFlc { s.flc with waitFrom := some s.now }
  | none, some t => (s.setFlc { s.flc with waitFrom := none }).count none cntFlcGateWait (s.now - t)
  | _, _ => s

/-- An extent waits at the gate. -/
def State.addExtent (s : State) (op part : Option Nat) (system : Bool) (size : Nat) (pages : List StagedPage) : State :=
  (s.setFlc { s.flc with
    extents := tset s.flc.nextExt ⟨op, part, system, size, false, pages, 0⟩ s.flc.extents
    nextExt := s.flc.nextExt + 1 }).settleWait

/-- Extents that leave the gate. -/
def State.dropExtents (s : State) (sel : Extent → Bool) : State :=
  (s.setFlc { s.flc with extents := s.flc.extents.filter (fun (e : Nat × Extent) => !sel e.2) }).settleWait

/-- The descriptors of the extents that `sel` names, each once. -/
def Flash.extentOps (f : Flash) (sel : Extent → Bool) : List Nat :=
  ((f.extents.filter (fun (e : Nat × Extent) => sel e.2)).filterMap (fun (e : Nat × Extent) => e.2.op)).eraseDups

end Sys2Proof.Machine
end

