-- ==== Sys2Proof/Machine/RunOps.lean ====
section
/-! DEFINITION. Panels and their TILE_RUN as shared operations: a Panel stops (R65), a Panel is free again, a TILE_RUN
completes (R54, R78, R259). -/

namespace Sys2Proof.Machine

def State.panel (s : State) (n : Nat) : Panel := tget panelInit s.panels n

def State.setPanel (s : State) (n : Nat) (x : Panel) : State := { s with panels := tset n x s.panels }

/-- Panel `n` stops with `status` at program word `word`, unless it has stopped before (R65). -/
def State.stopPanel (s : State) (n status word : Nat) : State :=
  let x := s.panel n
  match x.stopped with
  | some _ => s
  | none => s.setPanel n { x with stopped := some (status, word), ended := true }

/-- The Panels that PANEL_MASK of a TILE_RUN names. -/
def Op.panels (o : Op) : List Nat := bitsOf 64 (le o.bytes 24 8)

/-- A Panel of the run has retired its last command or has stopped. -/
def Panel.done (x : Panel) : Bool := x.ended && x.inflight.isEmpty && x.passes.all (·.done)

/-- A Panel ready for the next program: its open tiles and unconsumed streams are discarded; sets, store and base registers
persist. -/
def Panel.free (x : Panel) : Panel :=
  { x with
    run := none, prog := [], pc := 0, streams := [], passes := [], pass := none, tiles := []
    inflight := [], stall := none, touched := [], unsynced := [], barriers := 0, atBarrier := false, stopped := none
    ended := false, note := [], sat := false, inexact := false }

/-- SAT and INEXACT over every tile of the run on a Panel, those still open among them (R78). -/
def Panel.anySat (x : Panel) : Bool := x.sat || x.tiles.any (·.sat)

def Panel.anyInexact (x : Panel) : Bool := x.inexact || x.tiles.any (·.inexact)

/-- DETAIL of a TILE_RUN (R259): the flags of R78, the Panel and word of the stop with `status`; 0xFF where no Panel stopped. -/
def tileDetail (xs : List (Nat × Panel)) (status : Nat) : Bytes :=
  let flags := b2n (xs.any (fun (e : Nat × Panel) => e.2.anySat)) + 2 * b2n (xs.any (fun (e : Nat × Panel) => e.2.anyInexact))
  let who := xs.findSome? (fun (e : Nat × Panel) => match e.2.stopped with
    | some (st, w) => if st = status then some (e.1, w) else none
    | none => none)
  match who with
  | some (n, w) => leBytes 1 flags ++ leBytes 1 n ++ zeros 2 ++ leBytes 4 w
  | none => leBytes 1 flags ++ leBytes 1 0xFF

/-- The TILE_RUN `id` completes when every Panel that it names is done: the statuses met merge in Panel order (R65,
R399), and the Panels are free. -/
def State.settleRun (s : State) (id : Nat) : State :=
  match s.op id with
  | none => s
  | some o =>
    let xs := o.panels.map (fun n => (n, s.panel n))
    if o.phase = .running ∧ xs.all (fun (e : Nat × Panel) => e.2.run == some id && e.2.done) then
      let sts := xs.flatMap (fun (e : Nat × Panel) => e.2.note ++ (match e.2.stopped with
        | some (st, _) => [st]
        | none => []))
      let st := mergeStatus sts
      (xs.foldl (fun s (e : Nat × Panel) => s.setPanel e.1 e.2.free) s).finish id st (tileDetail xs st)
    else s

/-- The TILE_RUN of Panel `n` completes when it can. -/
def State.settle (s : State) (n : Nat) : State :=
  match (s.panel n).run with
  | some id => s.settleRun id
  | none => s

end Sys2Proof.Machine
end

