-- ==== Sys2Proof/Machine/SessionOps.lean ====
section
/-! DEFINITION. SPDM sessions as shared operations: EV_SEC_SESSION at every start and end (R337, R408), and the keys that
end with the session that delivered them (R328). -/

namespace Sys2Proof.Machine

/-- The function item of a session event (R408): 0 the PF, 1 to 32 a VF, 0xFF the management link. -/
def carrierCode : Carrier → Nat
  | .doe fn => fn
  | .mctp => 0xFF

/-- EV_SEC_SESSION: session ID, state (1 start, 0 end), function. -/
def State.sessionEvent (s : State) (x : Session) (st : Nat) : State :=
  s.raise srcThimble evSecSession 0xFF (leBytes 4 x.sid ++ leBytes 1 st ++ leBytes 1 (carrierCode x.carrier))

/-- The sessions that `sel` names are closed with their events; the slots they delivered with LIFETIME session are
zeroised by the caller (`zeroise`), which also ends what used those keys. -/
def State.closeSessions (s : State) (sel : Session → Bool) : State :=
  (s.sec.sessions.filter sel).foldl (fun s x => s.sessionEvent x 0)
    { s with sec := { s.sec with sessions := s.sec.sessions.filter (fun x => !sel x) } }

end Sys2Proof.Machine
end

