-- ==== Sys2Proof/Machine/SecOps.lean ====
section
/-! DEFINITION. The Thimble's shared operations: zeroisation and what it ends (R328, R329), entry to FAULT_SECURE (R343),
keys generated on chip (R195, R348), the DRBGs (R349). -/

namespace Sys2Proof.Machine

/-! ## Zeroisation -/

/-- Operations that use a PXT job key that is gone end with ST_FAB_NO_KEY (R329). -/
def State.endJobs (s : State) (dead : List Nat) : State :=
  let lost := fun (m : Msg) => match tfind s.fab.jobs m.job with
    | some j => dead.contains j.slot
    | none => false
  (s.fab.msgs.filter (fun e => lost e.2)).foldl (fun s e =>
    let s1 := s.removeMsg e.1
    match e.2.op with
    | some op => s1.finishFab op stFabNoKey
    | none => s1) s

/-- The GRUs of partition `p` drop their batches and zero their constants areas (R186). -/
def State.clearGrus (s : State) (p : Nat) : State :=
  { s with grus := s.grus.map (fun (e : Nat × Gru) =>
      if s.gruPart e.1 = some p then (e.1, { e.2 with batch := [], slots := 0 }) else e) }

/-- A GRU_RUN whose constant key is gone stops with ST_GRU_KEY_SLOT; its constants are zeroed (R186, R187). -/
def State.endRuns (s : State) (dead : List Nat) : State :=
  (s.gruRuns.filter (fun e => match tfind s.progs (e.1 * 256 + e.2.prog) with
      | some g => dead.contains g.slot
      | none => false)).foldl (fun s e =>
    ({ s with gruRuns := tdel e.1 s.gruRuns }.clearGrus e.1).finish e.2.op stGruKeySlot (leBytes 8 e.2.boots)) s

/-- Extents of partition `p` that wait at the hold-up gate are not encrypted yet (R219): without their key they end with
ST_FLC_NO_KEY. Extents already started need it no more. -/
def State.endExtents (s : State) (p : Nat) : State :=
  let mine := fun (x : Extent) => !x.started && x.part == some p
  (s.flc.extentOps mine).foldl (fun s op => s.finish op stFlcNoKey) (s.dropExtents mine)

/-- Opcodes of operations that read or write tiers A and B for as long as they run: DMA, HOST_SEAM_ADD, TILE_RUN, GRU_RUN,
SEAM_REGION, SEAM_FINALISE. -/
def memoryOps : List Nat := [0x01, 0x02, 0x03, 0x04, 0x10, 0x52, 0x68, 0x69]

/-- A Panel stopped where it is, with nothing of its program in flight any more. -/
def Panel.cut (x : Panel) (status : Nat) : Panel :=
  { x with
    stopped := match x.stopped with
      | some st => some st
      | none => some (status, x.pc)
    ended := true, streams := [], passes := [], pass := none, inflight := [], stall := none }

/-- A running operation of partition `o.fn - 1` whose memory keys are among `dead`. -/
def Op.losesMemory (o : Op) (dead : List Nat) : Bool :=
  o.phase == .running && decide (1 ≤ o.fn) && memoryOps.contains o.opcode
    && (dead.contains (8 + 2 * (o.fn - 1)) || dead.contains (9 + 2 * (o.fn - 1)))

/-- Operations that use a memory key that is gone end with ST_SEC_KEY_ZEROISED: chapter 9 names no key status (R329). -/
def State.endMemory (s : State) (dead : List Nat) : State :=
  (s.ops.filter (fun e => e.2.losesMemory dead)).foldl (fun s e =>
    if e.2.opcode = 0x10 then
      (e.2.panels.foldl (fun s n => s.setPanel n ((s.panel n).cut stSecKeyZeroised)) s).settleRun e.1
    else if e.2.opcode = 0x52 then
      let boots := (s.gruRuns.filter (fun x => x.2.op == e.1)).map (fun x => x.2.boots)
      ({ s with gruRuns := s.gruRuns.filter (fun x => x.2.op != e.1) }.clearGrus (e.2.fn - 1)).finish e.1 stSecKeyZeroised
        (leBytes 8 (boots.headD 0))
    else s.finish e.1 stSecKeyZeroised) s

/-- The slots that `sel` names are cleared in one step, with the tier C data key that a cleared tenant tier C key made
(R326, R328, R329); then what used them ends: rounds abort with KEYS_ZEROISED, jobs, runs and writes end with their
chapter's key status, what used a memory key with ST_SEC_KEY_ZEROISED. -/
def State.zeroise (s : State) (sel : Nat → KeySlot → Bool) : State :=
  let hit := s.sec.slots.filter (fun e => e.2.valid && sel e.1 e.2)
  let parts := (List.range 32).filter (fun p =>
    hit.any (fun e => (decide (168 ≤ e.1) && bit e.2.engine engTierC && (e.2.part == p || e.2.anyPart)) || e.1 == 72 + p))
  let dead := hit.map (·.1) ++ parts.map (72 + ·)
  let s1 := { s with sec := { s.sec with slots := s.sec.slots.filter (fun e => !dead.contains e.1) } }
  let s2 := (List.range 64).foldl (fun s r => if dead.contains (104 + r) then s.abortRound r causeKeysZeroised else s) s1
  parts.foldl (fun s p => s.endExtents p) (((s2.endJobs dead).endRuns dead).endMemory dead)

/-- Every slot and the IDE key store; every open round aborts (R328, R343). -/
def State.zeroiseAll (s : State) : State :=
  let z := s.zeroise (fun _ _ => true)
  ({ z with sec := { z.sec with slots := [], ide := [] } }).abortAll causeKeysZeroised

/-- A session ends: its event, and what it delivered with LIFETIME session is zeroised, IDE keys among it (R326, R328,
R337). -/
def State.endSessions (s : State) (sel : Session → Bool) : State :=
  let ids := (s.sec.sessions.filter sel).map (·.sid)
  if ids.isEmpty then s
  else
    let s1 := s.closeSessions sel
    let s2 := { s1 with sec := { s1.sec with ide := s1.sec.ide.filter (fun (e : Nat × Nat × Bytes) => !ids.contains e.2.1) } }
    s2.zeroise (fun n k => decide (168 ≤ n) && k.life == 0 && ids.contains k.sid)

/-! ## FAULT_SECURE (R343) -/

/-- Entry to FAULT_SECURE, only from DEPLOYED: the latch and the cause, the event, zeroisation, every session ends. -/
def State.enterFaultSecure (s : State) (cause : Nat) : State :=
  if s.sec.lifecycle = 1 then
    let s1 := { s with sec := { s.sec with latch := true, cause := cause } }
    let s2 := s1.raise srcThimble evSecFaultSecure 0xFF (leBytes 1 cause)
    (s2.zeroiseAll).endSessions (fun _ => true)
  else s

/-! ## Keys made on chip, DRBGs -/

/-- One output of the conditioned path: SHA3-384 over two consecutive blocks of one source. Which passing blocks the
sources bring is open (R348). -/
def State.condBlock (s : State) : Bytes × State :=
  let b := s.freeBytes 256
  (sha3_384 b.1, b.2)

/-- `n` outputs of the conditioned path. -/
def State.condBlocks : Nat → State → Bytes × State
  | 0, s => ([], s)
  | n + 1, s =>
    let a := s.condBlock
    let b := State.condBlocks n a.2
    (a.1 ++ b.1, b.2)

/-- `n` bytes of the conditioned path. -/
def State.condBytes (s : State) (n : Nat) : Bytes × State :=
  let r := State.condBlocks (ceilDiv n 48) s
  (r.1.take n, r.2)

/-- A key of `n` bytes from the conditioned path (R348). -/
def State.newKey (s : State) (slot n engine origin life : Nat) (part : Option Nat) : State :=
  let k := s.condBytes n
  k.2.setSlot slot ⟨true, k.1, origin, life, false, true, false, part.getD 0, 2 ^ engine, 0⟩

/-- The two memory keys of partition `p`, in slots 8 + 2p and 9 + 2p (R195, R326). -/
def State.newMemKeys (s : State) (p : Nat) : State :=
  (s.newKey (8 + 2 * p) 32 engMem 1 2 (some p)).newKey (9 + 2 * p) 32 engMem 1 2 (some p)

/-- Personalisation of a DRBG (R349): partition, SCRUB_EPOCH, boot Meridian time. -/
def State.drbgPers (s : State) (p : Nat) : Bytes := leBytes 1 p ++ leBytes 4 s.sec.epoch ++ time10 s.sec.bootAt

/-- A DRBG instantiated: 384 conditioned bits and a 128-bit nonce. -/
def State.drbgNew (s : State) (pers : Bytes) : Drbg × State :=
  let e := s.condBytes 48
  let n := e.2.condBytes 16
  (drbgInit e.1 n.1 pers, n.2)

/-- The DRBG of partition `p` instantiated. -/
def State.newDrbg (s : State) (p : Nat) : State :=
  let d := s.drbgNew (s.drbgPers p)
  d.2.setPart p { d.2.part p with drbg := some d.1 }

/-- The Thimble's own DRBG, for its masks. Its partition byte is not stated: open (notes/assumptions/84.md). -/
def State.newMaskDrbg (s : State) : State :=
  let b := s.freeBytes 1
  let d := b.2.drbgNew (b.1 ++ leBytes 4 s.sec.epoch ++ time10 s.sec.bootAt)
  { d.2 with sec := { d.2.sec with maskDrbg := some d.1 } }

/-- Requests since the last seed at which a DRBG reseeds (R349). -/
def drbgLimit : Nat := 65536

/-- One request of `n` bytes, at most 65,536; the DRBG reseeds before every 65,537th. -/
def State.drbgDraw (s : State) (d : Drbg) (n : Nat) : Bytes × Drbg × State :=
  let ds := if drbgLimit < d.count then
      let e := s.condBytes 48
      (drbgReseed d e.1, e.2)
    else (d, s)
  let g := drbgGenerate ds.1 n
  (g.1, g.2, ds.2)

/-- One request of partition `p`'s DRBG. -/
def State.drbgRequest (s : State) (p n : Nat) : Bytes × State :=
  match (s.part p).drbg with
  | none => (zeros n, s)
  | some d =>
    let g := s.drbgDraw d n
    (g.1, g.2.2.setPart p { g.2.2.part p with drbg := some g.2.1 })

/-- `n` bytes of partition `p`'s DRBG in requests of at most 65,536. -/
def State.drbgTake (p : Nat) : Nat → Nat → State → Bytes × State
  | 0, _, s => ([], s)
  | fuel + 1, n, s =>
    if n = 0 then ([], s)
    else
      let a := s.drbgRequest p (min n 65536)
      let b := State.drbgTake p fuel (n - min n 65536) a.2
      (a.1 ++ b.1, b.2)

def State.drbgBytes (s : State) (p n : Nat) : Bytes × State := State.drbgTake p (n / 65536 + 1) n s

end Sys2Proof.Machine
end

