-- ==== Sys2Proof/Machine/FabOps.lean ====
section
/-! DEFINITION. The Plynuc Transport as shared operations (spec/12_fabric_transport.md): endpoints and pair keys, packets
sent and opened, receive queues, receive entries, placement failures, messages. -/

namespace Sys2Proof.Machine

/-! ## Packet types and codes (R279, R282, R290) -/

abbrev pxtSend : Nat := 0x1
abbrev pxtWrite : Nat := 0x2
abbrev pxtReadReq : Nat := 0x3
abbrev pxtReadResp : Nat := 0x4
abbrev pxtAck : Nat := 0x5
abbrev pxtNack : Nat := 0x6
abbrev pxtFlush : Nat := 0x7
abbrev pxtFlushResp : Nat := 0x8
abbrev pxtError : Nat := 0x9

abbrev nackNoBuffer : Nat := 0x01
abbrev nackBusy : Nat := 0x02
abbrev nackAccess : Nat := 0x03
abbrev nackSeamClosed : Nat := 0x04
abbrev nackNoQueue : Nat := 0x05

/-! ## Endpoints and pair keys (R273 to R276) -/

/-- The module's address: word 0 holds bytes 0 to 3 in network order. -/
def State.ownAddr (s : State) : BitVec 128 :=
  BitVec.ofNat 128 ((List.range 4).foldl (fun a j => a * 2 ^ 32 + (tget 0 s.fab.addr j).toNat) 0)

/-- Endpoint (a, p) is the lower one. -/
def endpointLower (a : BitVec 128) (p : Nat) (b : BitVec 128) (q : Nat) : Bool :=
  decide (a.toNat < b.toNat) || (a == b && decide (p < q))

def endpointBytes (a : BitVec 128) (p : Nat) : Bytes := beBytes 16 a.toNat ++ beBytes 1 p

/-- The pair key of two endpoints under a job key. -/
def pairKey (jobKey : Bytes) (job : Nat) (a : BitVec 128) (p : Nat) (b : BitVec 128) (q : Nat) : Bytes :=
  let info := if endpointLower a p b q then endpointBytes a p ++ endpointBytes b q else endpointBytes b q ++ endpointBytes a p
  hkdf384 jobKey (ascii "PXT-PAIR") (info ++ beBytes 2 job) 32

/-- The job, its key usable by PXT, and the partition it is bound in. -/
def State.jobKey (s : State) (job : Nat) : Option Bytes :=
  match tfind s.fab.jobs job with
  | none => none
  | some j => let k := s.slot j.slot; if k.usable engPxt j.part then some k.key else none

/-- The nonce of a packet (R276). -/
def pxtNonce (lower : Bool) (seq : Nat) : Bytes := leBytes 1 (if lower then 0 else 1) ++ zeros 3 ++ beBytes 8 seq

/-- The 48 bytes of a header, in network byte order (R278). -/
def hdrBytes (h : PxtHdr) : Bytes :=
  beBytes 1 (h.ver.toNat * 16 + h.typ.toNat) ++ beBytes 1 h.flags.toNat ++ beBytes 2 h.job.toNat ++ beBytes 1 h.dstPart.toNat
    ++ beBytes 1 h.srcPart.toNat ++ beBytes 1 h.gen.toNat ++ beBytes 1 h.code.toNat ++ beBytes 2 h.msgId.toNat
    ++ beBytes 2 h.pktIndex.toNat ++ beBytes 4 h.msgLen.toNat ++ beBytes 8 h.txSeq.toNat ++ beBytes 8 h.txTime.toNat
    ++ beBytes 4 h.window.toNat ++ beBytes 4 h.queue.toNat ++ beBytes 8 h.aux.toNat

/-- The fields of a packet to send. -/
structure Outgoing where
  typ     : Nat
  last    : Bool
  gen     : Nat
  code    : Nat
  msgId   : Nat
  pkt     : Nat
  len     : Nat
  txTime  : Nat
  window  : Nat
  queue   : Nat
  aux     : Nat
deriving DecidableEq, Repr

/-- A packet of partition `p` leaves on `port` to an endpoint, protected under the pair key (R275 to R278). Without a usable
job key nothing leaves. -/
def State.sendPacket (s : State) (p job : Nat) (dst : BitVec 128) (dstPart port : Nat) (o : Outgoing) (body : Bytes) : State :=
  match s.jobKey job, tfind s.fab.jobs job with
  | some key, some j =>
    let own := s.ownAddr
    let h : PxtHdr :=
      { ver := 1, typ := BitVec.ofNat 4 o.typ, flags := if o.last then 1 else 0, job := BitVec.ofNat 16 job
        dstPart := BitVec.ofNat 8 dstPart, srcPart := BitVec.ofNat 8 p, gen := BitVec.ofNat 8 o.gen
        code := BitVec.ofNat 8 o.code, msgId := BitVec.ofNat 16 o.msgId, pktIndex := BitVec.ofNat 16 o.pkt
        msgLen := BitVec.ofNat 32 o.len, txSeq := BitVec.ofNat 64 j.txSeq, txTime := BitVec.ofNat 64 o.txTime
        window := BitVec.ofNat 32 o.window, queue := BitVec.ofNat 32 o.queue, aux := BitVec.ofNat 64 o.aux }
    let k := pairKey key job own p dst dstPart
    let iv := pxtNonce (endpointLower own p dst dstPart) j.txSeq
    let ct := gcmCrypt k iv body
    let pkt : Packet := ⟨port, own, dst, BitVec.ofNat 16 s.fab.udpPort, h, ct, gcmTag k iv (hdrBytes h) ct⟩
    let src := 49152 + (Config.udpHash o.msgId (o.pkt / 16)).toNat
    ({ s with fab := { s.fab with jobs := tset job { j with txSeq := j.txSeq + 1 } s.fab.jobs } }).put (.packet src pkt)
  | _, _ => s

/-! ## Peers -/

def peerKey (p i : Nat) : Nat := p * 4096 + i

def State.peer (s : State) (p i : Nat) : Option Peer := tfind s.fab.peers (peerKey p i)

/-- The peer table index of an endpoint, or 0xFFFF (R397). -/
def State.endpointIdx (s : State) (p : Nat) (a : BitVec 128) (part : Nat) : Nat :=
  match s.fab.peers.find? (fun (e : Nat × Peer) => e.1 / 4096 == p && e.2.addr == a && e.2.part == part) with
  | some e => e.1 % 4096
  | none => 0xFFFF

/-! ## Opening a packet (R279, R280) -/

/-- TYPE, version, reserved bits and, for a packet that carries payload, its length and LAST flag (R277 to R279). -/
def formatOk (k : Packet) : Bool :=
  let h := k.hdr
  let t := h.typ.toNat
  let len := h.msgLen.toNat
  let carries := t == pxtSend || t == pxtWrite || t == pxtReadResp
  let i := h.pktIndex.toNat
  h.ver == 1 && decide (1 ≤ t) && decide (t ≤ 9) && h.flags.toNat / 2 == 0 && field h.window.toNat 11 5 == 0
    && (if carries then
        decide (1 ≤ len) && decide (len ≤ maxMessage) && decide (i < packetCount len) && k.body.length == packetLen len i
          && (h.flags.toNat == 1) == (i + 1 == packetCount len)
      else k.body.isEmpty && (t != pxtReadReq || (decide (1 ≤ len) && decide (len ≤ maxMessage))))

/-- TX_TIME within 2 ms of the Meridian, the seconds by serial-number arithmetic. -/
def freshTime (now tx : Nat) : Bool :=
  let ds := signed 32 ((tx / 2 ^ 32) + 2 ^ 32 - secsOf now % 2 ^ 32)
  let d : Int := ds * nsPerSec + (tx % 2 ^ 32 : Nat) - (nanosOf now : Nat)
  decide (-2000000 ≤ d) && decide (d ≤ 2000000)

/-- The event of a failed tag, at most once per millisecond per partition. -/
def State.authFail (s : State) (p : Nat) (k : Packet) : State :=
  let s1 := s.countPart p cntFabAuthFail
  let due := match tfind s.fab.authAt p with
    | none => true
    | some t => decide (t + msNs ≤ s.now)
  if due then
    ({ s1 with fab := { s1.fab with authAt := tset p s.now s1.fab.authAt } }).raise (srcPort k.port) evFabAuthFail p
      (leBytes 1 p ++ leBytes 2 (s.endpointIdx p k.src k.hdr.srcPart.toNat) ++ leBytes 2 k.hdr.job.toNat)
  else s1

/-- Steps 1 to 3 of R280 for a packet of type `typ`, and `f` on its plaintext with the partition that it reached. A packet
that is not addressed to this endpoint, comes on a port that is down, or has another type is not this command's. -/
def State.opened (s : State) (typ : Nat) (k : Packet) (f : Nat → Bytes → State) : State :=
  let h := k.hdr
  let p := h.dstPart.toNat
  if !s.isRun ∨ !(tget portInit s.fab.ports k.port).up ∨ k.dst ≠ s.ownAddr ∨ k.udpPort.toNat ≠ s.fab.udpPort then s
  else if !formatOk k then s.countMod cntFabFormat
  else if h.typ.toNat ≠ typ then s
  else
    match tfind s.fab.jobs h.job.toNat with
    | none => s.countMod cntFabNoJob
    | some j =>
      if j.part ≠ p then s.countMod cntFabNoJob
      else
        match s.jobKey h.job.toNat with
        | none => s.authFail p k
        | some key =>
          let pk := pairKey key h.job.toNat s.ownAddr p k.src h.srcPart.toNat
          let iv := pxtNonce (endpointLower k.src h.srcPart.toNat s.ownAddr p) h.txSeq.toNat
          match gcmOpen pk iv (hdrBytes h) k.body k.tag with
          | none => s.authFail p k
          | some plain => if freshTime s.now h.txTime.toNat then f p plain else s.countMod cntFabAged

/-- A packet in answer to `k`: same job, message and generation, and the echo of its TX_TIME (R278). -/
def State.answer (s : State) (k : Packet) (typ code pkt queue aux : Nat) : State :=
  let h := k.hdr
  s.sendPacket h.dstPart.toNat h.job.toNat k.src h.srcPart.toNat k.port
    ⟨typ, false, h.gen.toNat, code, h.msgId.toNat, pkt, h.msgLen.toNat, h.txTime.toNat, 0, queue, aux⟩ []

def State.nack (s : State) (k : Packet) (code : Nat) : State := s.answer k pxtNack code k.hdr.pktIndex.toNat 0 0

def State.ackOne (s : State) (k : Packet) : State := s.answer k pxtAck 0 k.hdr.pktIndex.toNat 0 1

/-! ## Receive queues (R285 to R287) -/

def queueKey (p q : Nat) : Nat := p * 64 + q

def State.rxq (s : State) (p q : Nat) : Option RxQueue := tfind s.fab.queues (queueKey p q)

def State.setRxq (s : State) (p q : Nat) (x : RxQueue) : State :=
  { s with fab := { s.fab with queues := tset (queueKey p q) x s.fab.queues } }

def RxQueue.size (q : RxQueue) : Nat := 2 ^ q.log

/-- Where the chain array begins. -/
def RxQueue.chain (q : RxQueue) : Nat := q.base + q.count * q.size

/-- Buffers back on the free list of a queue. -/
def State.giveBack (s : State) (p q : Nat) (bs : List Nat) : State :=
  match s.rxq p q with
  | none => s
  | some x => s.setRxq p q { x with free := x.free ++ bs.filter (fun b => !x.free.contains b && decide (b < x.count)) }

/-- A buffer from the free list; which one the spec leaves open. -/
def State.takeBuffer (s : State) (p q : Nat) : Option (Nat × State) :=
  match s.rxq p q with
  | none => none
  | some x =>
    match x.free with
    | [] => none
    | b :: bs =>
      let c := s.freeBytes 4
      let v := x.free.getD (leNat c.1 % (bs.length + 1)) b
      some (v, c.2.setRxq p q { x with free := x.free.filter (· != v) })

/-- Bytes of a record of a ring (R145). -/
def recordBytes (ring64 : Bool) : Nat := if ring64 then 131104 else 65568

/-- The longest record that partition `p`'s bound rounds use (R158). -/
def State.longestRecord (s : State) (p : Nat) : Nat :=
  let bound := [2 * p, 2 * p + 1].filter (fun r => (s.round r).st != .idle)
  if bound.isEmpty ∨ bound.any (fun r => (s.round r).pol.ring64) then recordBytes true else recordBytes false

/-- ING_QSTAT.FULL (R158). -/
def State.ingFull (s : State) (p : Nat) : Bool :=
  match s.rxq p 0 with
  | none => false
  | some x => decide (x.free.length < ceilDiv (s.longestRecord p) x.size)

/-- An arrival record on the completion ring of the partition's VF (R285). -/
def State.arrival (s : State) (p q status first len : Nat) : State :=
  onRep (fun r => r.placeCpl (p + 1)
    ⟨q, status, 0x7E, 0, if status = stOk then leBytes 4 first ++ leBytes 4 len else [], r.now, false, none⟩) s

/-! ## Receive entries (R283) -/

def State.setRx (s : State) (i : Nat) (e : RxEntry) : State := { s with fab := { s.fab with rx := tset i e s.fab.rx } }

/-- Messages that an endpoint initiates share one space of MSG_IDs; READ_RESP and ERROR come under the other side's, each
failed range in an ERROR of its own. -/
def rxClass (typ : Nat) : Nat := if typ = pxtReadResp ∨ typ = pxtError then typ else 0

/-- The entry that a packet is judged against. -/
def State.rxFind (s : State) (k : Packet) : Option (Nat × RxEntry) :=
  let h := k.hdr
  s.fab.rx.find? (fun (e : Nat × RxEntry) => e.2.src == k.src && e.2.srcPart == h.srcPart.toNat && e.2.job == h.job.toNat
    && e.2.msgId == h.msgId.toNat && e.2.part == h.dstPart.toNat && !e.2.gone && rxClass e.2.typ == rxClass h.typ.toNat
    && (h.typ.toNat != pxtError || e.2.off == h.aux.toNat))

def rxLimit : Nat := 65536

/-- How long an entry stays after its end. -/
def rxKeep : Nat := 4 * msNs

/-- An OPEN entry for the message of a packet. -/
def rxNew (now : Nat) (k : Packet) : RxEntry :=
  let h := k.hdr
  { src := k.src, srcPart := h.srcPart.toNat, job := h.job.toNat, msgId := h.msgId.toNat, part := h.dstPart.toNat
    typ := h.typ.toNat, gen := h.gen.toNat, len := h.msgLen.toNat, st := .opened, got := [], queue := h.queue.toNat
    bufs := [], stamp := now, window := field h.window.toNat 0 11, wgen := field h.window.toNat 16 16, off := h.aux.toNat
    expire := 0, last := now, drop := 0, port := k.port, data := [], unit := 0, dst := none, late := false, ack := []
    gone := false }

/-- The buffers that a message has taken, in message order. -/
def RxEntry.buffers (e : RxEntry) : List Nat := e.bufs.map (·.2)

/-- The last message of a job that unbinds has ended, sent or arriving, and every FLUSH is answered
(notes/assumptions/88.md): FAB_JOB completes, and the job's counter is kept for its key (R276, R300). -/
def State.settleJob (s : State) (job : Nat) : State :=
  match s.fab.unbinds.find? (fun (e : Nat × Nat) => e.1 == job), tfind s.fab.jobs job with
  | some e, some j =>
    if s.fab.msgs.any (fun (m : Nat × Msg) => m.2.job == job)
        ∨ s.fab.rx.any (fun (x : Nat × RxEntry) => x.2.job == job && x.2.st == .opened)
        ∨ s.fab.flushes.any (fun (w : Nat × FlushWait) => w.2.job == job) then s
    else
      ({ s with
        fab := { s.fab with
          jobs := tdel job s.fab.jobs, unbinds := s.fab.unbinds.filter (fun (x : Nat × Nat) => x.1 != job)
          jobSeqs := tset job (sha384 (s.slot j.slot).key, j.txSeq) s.fab.jobSeqs } }).finish e.2 stOk
  | _, _ => s

/-- The entry ends as `st` and stays for 4 ms; what it took of a queue goes back. -/
def State.endRx (s : State) (i : Nat) (e : RxEntry) (st : RxState) : State :=
  let s1 := s.setRx i { e with st := st, expire := s.now + rxKeep, bufs := [], data := [], drop := 0 }
  let s2 := if e.typ = pxtSend ∧ st = .abandoned then s1.giveBack e.part e.queue e.buffers else s1
  s2.settleJob e.job

/-- Addends of the message of entry `i` are not decided. -/
def State.rxPending (s : State) (i : Nat) : Bool := s.xfers.any (fun (x : Nat × Xfer) => x.2.src == .pxt i)

/-- The entry is free for its key: it goes, or is held while addends of its message are not decided. -/
def State.dropRx (s : State) (i : Nat) : State :=
  match tfind s.fab.rx i with
  | none => s
  | some e => if s.rxPending i then s.setRx i { e with gone := true } else { s with fab := { s.fab with rx := tdel i s.fab.rx } }

/-- Windows -/
def windowKey (p i : Nat) : Nat := p * 2048 + i

def State.window (s : State) (p i : Nat) : Option Window := tfind s.fab.windows (windowKey p i)

def State.setWindow (s : State) (p i : Nat) (w : Window) : State :=
  { s with fab := { s.fab with windows := tset (windowKey p i) w s.fab.windows } }

/-- Messages admitted through the window have retired (R291): no entry is open and no response is being sent. -/
def State.windowQuiet (s : State) (p i : Nat) : Bool :=
  !s.fab.rx.any (fun (e : Nat × RxEntry) => e.2.part == p && e.2.window == i && e.2.st == .opened
      && (e.2.typ == pxtWrite || e.2.typ == pxtReadReq))
    && !s.fab.msgs.any (fun (e : Nat × Msg) => e.2.kind == .readResp && e.2.part == p && e.2.window == i)
    && !s.xfers.any (fun (x : Nat × Xfer) => match x.2.src with
      | .pxt n => (match tfind s.fab.rx n with
        | some e => e.part == p && e.window == i
        | none => false)
      | _ => false)

/-- A revoke of the window completes when its messages have retired (R291). -/
def State.settleWindow (s : State) (p i : Nat) : State :=
  match s.window p i with
  | none => s
  | some w =>
    match w.revoke with
    | none => s
    | some op => if s.windowQuiet p i then (s.setWindow p i { w with revoke := none }).finish op stOk else s

/-- A queue's DELETE completes when no message is open on it, and no record waits in it (R300). -/
def State.settleQueue (s : State) (p q : Nat) : State :=
  match s.rxq p q with
  | none => s
  | some x =>
    match x.delOp with
    | none => s
    | some op =>
      if s.fab.rx.any (fun (e : Nat × RxEntry) => e.2.typ == pxtSend && e.2.st == .opened && e.2.part == p && e.2.queue == q)
          ∨ (q = 0 ∧ !(s.ing p).queue.isEmpty) then s
      else ({ s with fab := { s.fab with queues := tdel (queueKey p q) s.fab.queues } }).finish op stOk

/-! ## Messages that this module initiates (R281, R284) -/

def msgLimit : Nat := 65536

def State.setMsg (s : State) (i : Nat) (m : Msg) : State := { s with fab := { s.fab with msgs := tset i m s.fab.msgs } }

/-- The MSG_ID that endpoint `p` takes: one never used, else the least recently freed. -/
def State.pickId (s : State) (p : Nat) : Option Nat :=
  let used := (s.fab.idGen.filter (fun (e : Nat × Nat) => e.1 / 65536 == p)).length
  if used < 65536 then some used else (s.fab.idFree.find? (fun k => k / 65536 == p)).map (· % 65536)

/-- A message under an ID of its own, GEN + 1; none while no ID or no message entry is free. -/
def State.startMsg (s : State) (m : Msg) : Option State :=
  match (if s.fab.msgs.length < msgLimit then s.pickId m.part else none) with
  | none => none
  | some id =>
    let key := idKey m.part id
    let gen := (tget 0 s.fab.idGen key + 1) % 256
    some { s with
      fab := { s.fab with
        idGen := tset key gen s.fab.idGen, idFree := s.fab.idFree.filter (· != key)
        msgs := tset s.fab.nextMsg { m with msgId := id, gen := gen } s.fab.msgs, nextMsg := s.fab.nextMsg + 1 } }

/-- A message goes, and with a response what a revoke of its window may wait for. -/
def State.endMsg (s : State) (i : Nat) : State :=
  match tfind s.fab.msgs i with
  | none => s
  | some m => if m.kind = .readResp then (s.removeMsg i).settleWindow m.part m.window else s.removeMsg i

/-- A message ends and its descriptor, if any, completes. -/
def State.finishMsg (s : State) (i status : Nat) : State :=
  match tfind s.fab.msgs i with
  | none => s
  | some m =>
    let s1 := s.endMsg i
    let s2 := match m.op with
      | some op => s1.finishFab op status
      | none => s1
    s2.settleJob m.job

/-! ## Placement at the target (R293, R294) -/

def failKey (p srcPart : Nat) : Nat := p * 256 + srcPart

def State.failCount (s : State) (p : Nat) (a : BitVec 128) (srcPart : Nat) : Nat :=
  match s.fab.fails.find? (fun (e : BitVec 128 × Nat × Nat) => e.1 == a && e.2.1 == failKey p srcPart) with
  | some e => e.2.2
  | none => 0

def State.setFailCount (s : State) (p : Nat) (a : BitVec 128) (srcPart n : Nat) : State :=
  let rest := s.fab.fails.filter (fun (e : BitVec 128 × Nat × Nat) => !(e.1 == a && e.2.1 == failKey p srcPart))
  { s with fab := { s.fab with fails := if n = 0 then rest else (a, failKey p srcPart, n) :: rest } }

/-- A message with no descriptor and no ID of its own. -/
def plainMsg (kind : MsgKind) (part : Nat) (dst : BitVec 128) (dstPart job msgId gen len now : Nat) : Msg :=
  { op := none, kind := kind, part := part, dst := dst, dstPart := dstPart, job := job, msgId := msgId, gen := gen, len := len
    window := 0, queue := 0, aux := 0, tier := 0, src := 0, code := 0, unsent := [], unacked := [], started := false
    rnrUs := 0, rnrWait := false, ctx := none, last := now, ccWait := none, peer := 0, echo := 0 }

/-- Bytes `[first, first + len)` of an accepted message could not be placed: the failure is counted, reported on the
target's partition, and an ERROR packet goes to the initiator. -/
def State.placeFail (s : State) (i first len code : Nat) : State :=
  match tfind s.fab.rx i with
  | none => s
  | some e =>
    let s1 := s.setFailCount e.part e.src e.srcPart (s.failCount e.part e.src e.srcPart + 1)
    let s2 := s1.raise (srcPort e.port) evFabPlacementFail e.part
      (leBytes 2 (s.endpointIdx e.part e.src e.srcPart) ++ leBytes 2 e.msgId ++ leBytes 1 e.gen ++ leBytes 4 first ++ leBytes 4 len)
    let m := plainMsg .error e.part e.src e.srcPart e.job e.msgId e.gen e.len s.now
    { s2 with
      fab := { s2.fab with
        msgs := tset s2.fab.nextMsg { m with code := code, aux := first * 2 ^ 32 + len, unsent := [first / pktBytes] } s2.fab.msgs
        nextMsg := s2.fab.nextMsg + 1 } }

/-- Every packet of the message has come. -/
def RxEntry.whole (e : RxEntry) : Bool := decide (packetCount e.len ≤ e.got.length)

/-- Every addend of the message of entry `i` is decided: a WRITE whose packets have all come is placed and counts at its
window's counter (R297), a revoke of the window may complete (R291), and an entry held for its addends goes. -/
def State.writeDone (s : State) (i : Nat) : State :=
  match tfind s.fab.rx i with
  | none => s
  | some e =>
    if e.typ ≠ pxtWrite ∨ s.rxPending i then s
    else
      let s1 := match s.window e.part e.window with
        | some w => if e.st = RxState.complete then s.bump e.part w.counter else s
        | none => s
      let s2 := s1.settleWindow e.part e.window
      if e.gone then { s2 with fab := { s2.fab with rx := tdel i s2.fab.rx } } else s2

/-- The runs of consecutive numbers of a list of them: first and length. -/
def runsOf : List Nat → List (Nat × Nat)
  | [] => []
  | x :: xs =>
    match runsOf xs with
    | (a, n) :: rest => if x + 1 = a then (x, n + 1) :: rest else (x, 1) :: (a, n) :: rest
    | [] => [(x, 1)]

/-- `x` in its place of an ascending list. -/
def insertAsc (x : Nat) : List Nat → List Nat
  | [] => [x]
  | y :: ys => if x ≤ y then x :: y :: ys else y :: insertAsc x ys

/-- A list in ascending order. -/
def sortAsc (l : List Nat) : List Nat := l.foldl (fun a x => insertAsc x a) []

/-- The addends of a packet of message `i` are decided; `failed` lists the elements whose addends were not committed, each
with whether it was late. Every run of failed elements is a placement failure of its own (R294). -/
def State.endPxtAdds (s : State) (i : Nat) (failed : List (Nat × Bool)) : State :=
  match tfind s.fab.rx i with
  | none => s
  | some e =>
    let report := fun (s : State) (late : Bool) =>
      (runsOf (sortAsc ((failed.filter (fun x => x.2 == late)).map (·.1)))).foldl (fun s (r : Nat × Nat) =>
        s.placeFail i (r.1 * e.unit - e.off) (r.2 * e.unit) (if late then nackSeamClosed else nackAccess)) s
    (report (report s false) true).writeDone i

end Sys2Proof.Machine
end

