-- ==== Sys2Proof/Machine/Formats.lean ====
section
/-! DEFINITION. Number formats (spec/02_number_formats.md): the encodings of R29 and R30, packing (R32), the format
attribute byte (R33, R34), permitted pairs (R35), block scales (R36, R37), F61 (R38), conversions and rounding (R41 to
R45), and FP32 arithmetic under round to nearest even. -/

namespace Sys2Proof.Machine

/-! ## FMT codes (R29) -/

abbrev fmtInt4 : Nat := 0x0
abbrev fmtInt8 : Nat := 0x1
abbrev fmtInt16 : Nat := 0x2
abbrev fmtInt32 : Nat := 0x3
abbrev fmtFp4 : Nat := 0x4
abbrev fmtE2m3 : Nat := 0x5
abbrev fmtE3m2 : Nat := 0x6
abbrev fmtE4m3 : Nat := 0x7
abbrev fmtE5m2 : Nat := 0x8
abbrev fmtBf16 : Nat := 0x9
abbrev fmtFp16 : Nat := 0xA
abbrev fmtFp32 : Nat := 0xB
abbrev fmtRing32 : Nat := 0xC
abbrev fmtRing64 : Nat := 0xD
abbrev fmtF61 : Nat := 0xE

/-- Bits of an element. -/
def fmtBits (f : Nat) : Nat := [4, 8, 16, 32, 4, 6, 6, 8, 8, 16, 16, 32, 32, 64, 64].getD f 0

def isInt (f : Nat) : Bool := decide (f ≤ 3)
def isFloat (f : Nat) : Bool := decide (4 ≤ f) && decide (f ≤ 0xB)
def isRing (f : Nat) : Bool := f == 0xC || f == 0xD
def is4bit (f : Nat) : Bool := f == fmtInt4 || f == fmtFp4

/-- Exponent bits, mantissa bits, bias, and the specials: 0 none, 1 NaN at all ones only (FP8 E4M3), 2 as IEEE 754. -/
structure FloatFmt where
  ebits : Nat
  mbits : Nat
  bias  : Nat
  spec  : Nat
deriving DecidableEq, Repr

def floatFmt (f : Nat) : FloatFmt :=
  match f with
  | 0x4 => ⟨2, 1, 1, 0⟩
  | 0x5 => ⟨2, 3, 1, 0⟩
  | 0x6 => ⟨3, 2, 3, 0⟩
  | 0x7 => ⟨4, 3, 7, 1⟩
  | 0x8 => ⟨5, 2, 15, 2⟩
  | 0x9 => ⟨8, 7, 127, 2⟩
  | 0xA => ⟨5, 10, 15, 2⟩
  | _ => ⟨8, 23, 127, 2⟩

/-! ## The format attribute byte (R33 to R35) -/

def fmtOf (a : Nat) : Nat := a % 16
def rndOf (a : Nat) : Nat := field a 5 2
def bsOf (a : Nat) : Bool := bit a 7

/-- R34: the status of an FMTA that breaks R33; 0 where it stands. -/
def fmtaStatus (a : Nat) (input : Bool) : Nat :=
  if fmtOf a = 0xF ∨ rndOf a = 3 ∨ bit a 4 ∨ (input ∧ rndOf a ≠ 0) then stFmtReserved
  else if bsOf a ∧ ¬(4 ≤ fmtOf a ∧ fmtOf a ≤ 8) then stFmtBsInvalid
  else stOk

/-- R35: a permitted pair of weight and activation formats. -/
def pairOk (w a : Nat) : Bool := w == a || (decide (5 ≤ w) && decide (w ≤ 8) && decide (5 ≤ a) && decide (a ≤ 8))

/-! ## Packing (R32) -/

/-- Bytes of `n` packed elements. -/
def packedBytes (f n : Nat) : Nat :=
  if is4bit f then ceilDiv n 2 else if fmtBits f = 6 then ceilDiv n 4 * 3 else n * (fmtBits f / 8)

/-- Element `k` of a packed array. -/
def elemAt (f : Nat) (bs : Bytes) (k : Nat) : Nat :=
  if is4bit f then field (byteAt bs (k / 2)) (4 * (k % 2)) 4
  else if fmtBits f = 6 then field (le bs (k / 4 * 3) 3) (6 * (k % 4)) 6
  else le bs (k * (fmtBits f / 8)) (fmtBits f / 8)

/-- The value of a group of codes of `b` bits, the first lowest. -/
def groupValue (b : Nat) : List Nat → Nat
  | [] => 0
  | c :: cs => c + 2 ^ b * groupValue b cs

/-- Lists of at most `n` entries; `fuel` bounds the count. -/
def groupsOf {α : Type} (n : Nat) : Nat → List α → List (List α)
  | 0, _ => []
  | fuel + 1, xs => if xs.isEmpty then [] else xs.take n :: groupsOf n fuel (xs.drop n)

/-- Codes packed, padded with zero bits. -/
def packElems (f : Nat) (cs : List Nat) : Bytes :=
  if is4bit f then (groupsOf 2 (cs.length + 1) cs).flatMap (fun g => leBytes 1 (groupValue 4 g))
  else if fmtBits f = 6 then (groupsOf 4 (cs.length + 1) cs).flatMap (fun g => leBytes 3 (groupValue 6 g))
  else cs.flatMap (leBytes (fmtBits f / 8))

/-! ## Values -/

/-- A floating-point value: `fin neg m e` is ±m × 2^e, with m = 0 for the zero of that sign. -/
inductive FVal where
  | nan
  | inf (neg : Bool)
  | fin (neg : Bool) (m : Nat) (e : Int)
deriving DecidableEq, Repr

/-- A floating-point code decoded (R29, R30). -/
def decodeFloat (f code : Nat) : FVal :=
  let q := floatFmt f
  let man := field code 0 q.mbits
  let ex := field code q.mbits q.ebits
  let neg := bit code (q.mbits + q.ebits)
  if q.spec = 2 ∧ ex = 2 ^ q.ebits - 1 then (if man = 0 then .inf neg else .nan)
  else if q.spec = 1 ∧ ex = 2 ^ q.ebits - 1 ∧ man = 2 ^ q.mbits - 1 then .nan
  else if ex = 0 then .fin neg man (1 - (q.bias : Int) - q.mbits)
  else .fin neg (2 ^ q.mbits + man) ((ex : Int) - q.bias - q.mbits)

/-- The canonical NaN of a format (R30, R31); 0 in a format without NaN (R43). -/
def nanCode (f : Nat) : Nat :=
  match f with
  | 0x7 => 0x7F
  | 0x8 => 0x7E
  | 0x9 => 0x7FC0
  | 0xA => 0x7E00
  | 0xB => 0x7FC00000
  | _ => 0

def hasNan (f : Nat) : Bool := decide (7 ≤ f) && decide (f ≤ 0xB)

def signBit (f : Nat) (neg : Bool) : Nat := if neg then 2 ^ (fmtBits f - 1) else 0

/-- The largest finite code of a format, without sign. -/
def maxCode (f : Nat) : Nat :=
  let q := floatFmt f
  match q.spec with
  | 0 => 2 ^ (q.ebits + q.mbits) - 1
  | 1 => 2 ^ (q.ebits + q.mbits) - 2
  | _ => (2 ^ q.ebits - 1) * 2 ^ q.mbits - 1

def infCode (f : Nat) : Nat := maxCode f + 1

/-- The exponent of the quantum to which ±m × 2^e rounds in format `f`. -/
def quantum (f m : Nat) (e : Int) : Int :=
  let q := floatFmt f
  max (Nat.log2 m + e) (1 - (q.bias : Int)) - q.mbits

/-- m × 2^e as a multiple of 2^q: the quotient, the dropped remainder and its bits. -/
def cutAt (m : Nat) (e q : Int) : Nat × Nat × Nat :=
  if q ≤ e then (m * 2 ^ (e - q).toNat, 0, 0)
  else
    let sh := (q - e).toNat
    (m / 2 ^ sh, m % 2 ^ sh, sh)

/-- Whether a quotient is rounded up (R33, R44): `r` is the 16 bits drawn. -/
def roundsUp (rnd n drop sh r : Nat) : Bool :=
  if drop = 0 then false
  else match rnd with
    | 0 => decide (2 ^ sh < 2 * drop) || (2 * drop == 2 ^ sh && n % 2 == 1)
    | 2 => decide (2 ^ 16 ≤ (if 16 ≤ sh then drop / 2 ^ (sh - 16) else drop * 2 ^ (16 - sh)) + r)
    | _ => false

/-- The code, without sign, of n × 2^q where q is a quantum of format `f`; n below 2^(mbits + 1), or equal to it. -/
def codeOf (f n : Nat) (q : Int) : Nat :=
  let x := floatFmt f
  let ex := (q + x.mbits + x.bias).toNat
  if n < 2 ^ x.mbits then n
  else (ex - 1) * 2 ^ x.mbits + n

/-- What a conversion wrote: the code, and whether it counts in CNT_CONV_SAT or CNT_CONV_NAN. -/
structure Conv where
  code : Nat
  sat  : Bool
  nan  : Bool
deriving DecidableEq, Repr

/-- A finite non-zero magnitude to format `f` (R42, R44). -/
def roundFloat (f rnd r : Nat) (neg : Bool) (m : Nat) (e : Int) : Conv :=
  let q := quantum f m e
  let c := cutAt m e q
  let n := if roundsUp rnd c.1 c.2.1 c.2.2 r then c.1 + 1 else c.1
  let code := codeOf f n q
  if code ≤ maxCode f then ⟨signBit f neg + code, false, false⟩
  else if (floatFmt f).spec = 2 then
    ⟨signBit f neg + (if rnd = 1 then maxCode f else infCode f), false, false⟩
  else ⟨signBit f neg + maxCode f, true, false⟩

/-- A conversion that rounds draws bits under RND 0b10, but where a target with infinity is certain to receive it (R42,
R44; notes/assumptions/61.md). -/
def floatDraws (f m : Nat) (e : Int) : Bool :=
  let q := quantum f m e
  let c := cutAt m e q
  c.2.1 != 0 && ((floatFmt f).spec != 2 || decide (codeOf f c.1 q ≤ maxCode f))

/-- A floating-point value to a floating-point format. -/
def toFloat (f rnd r : Nat) : FVal → Conv
  | .nan => ⟨nanCode f, false, !hasNan f⟩
  | .inf neg => if (floatFmt f).spec = 2 then ⟨signBit f neg + infCode f, false, false⟩ else ⟨signBit f neg + maxCode f, true, false⟩
  | .fin neg m e => if m = 0 then ⟨signBit f neg, false, false⟩ else roundFloat f rnd r neg m e

def intMin (f : Nat) : Int := -(2 ^ (fmtBits f - 1) : Nat)
def intMax (f : Nat) : Int := (2 ^ (fmtBits f - 1) : Nat) - 1

/-- An integer to an integer format, saturating (R42). -/
def toInt (f : Nat) (v : Int) : Conv :=
  if v < intMin f then ⟨wrap (fmtBits f) (intMin f), true, false⟩
  else if intMax f < v then ⟨wrap (fmtBits f) (intMax f), true, false⟩
  else ⟨wrap (fmtBits f) v, false, false⟩

/-- A floating-point value to an integer format. -/
def floatToInt (f rnd r : Nat) : FVal → Conv
  | .nan => ⟨0, false, true⟩
  | .inf neg => ⟨wrap (fmtBits f) (if neg then intMin f else intMax f), true, false⟩
  | .fin neg m e =>
    let c := cutAt m e 0
    let n := if roundsUp rnd c.1 c.2.1 c.2.2 r then c.1 + 1 else c.1
    toInt f (if neg then -(n : Int) else n)

/-- An integer as a floating-point value; zero is +0. -/
def intVal (v : Int) : FVal := .fin (decide (v < 0)) v.natAbs 0

/-! ## F61 (R38) -/

def f61P : Nat := 2 ^ 61 - 1

/-! ## Conversions (R41) -/

/-- A source element: an integer, a floating-point value, a ring value of 32 or 64 bits, a canonical F61 value. -/
inductive Val where
  | int (v : Int)
  | flt (v : FVal)
  | ring (bits v : Nat)
  | f61 (v : Nat)
deriving DecidableEq, Repr

/-- The value of a code in format `f`; an F61 code is reduced (R39). -/
def valOf (f code : Nat) : Val :=
  if isInt f then .int (signed (fmtBits f) code)
  else if isFloat f then .flt (decodeFloat f code)
  else if f = fmtRing32 then .ring 32 (code % 2 ^ 32)
  else if f = fmtRing64 then .ring 64 (code % 2 ^ 64)
  else .f61 (code % f61P)

/-- R41: the conversion from format `src` to format `dst` is permitted. -/
def convOk (src dst : Nat) : Bool :=
  if isFloat src then isInt dst || isFloat dst
  else if src = fmtF61 then isRing dst || dst == fmtF61
  else true

/-- R41, R45: the conversion is one that the table marks as rounded. -/
def convRounds (src dst : Nat) : Bool := (isFloat dst && src != fmtF61) || (isFloat src && isInt dst)

/-- An element converted to format `dst` under `rnd`, with `r` the 16 bits drawn (R41 to R44). -/
def convert (dst rnd r : Nat) : Val → Conv
  | .int v =>
    if isInt dst then toInt dst v
    else if isFloat dst then toFloat dst rnd r (intVal v)
    else if dst = fmtF61 then ⟨(v % (f61P : Int)).toNat, false, false⟩
    else ⟨wrap (fmtBits dst) v, false, false⟩
  | .flt v => if isInt dst then floatToInt dst rnd r v else toFloat dst rnd r v
  | .ring b v =>
    let l := signed b v
    if isInt dst then toInt dst l
    else if isFloat dst then toFloat dst rnd r (intVal l)
    else if dst = fmtF61 then ⟨(l % (f61P : Int)).toNat, false, false⟩
    else ⟨wrap (fmtBits dst) l, false, false⟩
  | .f61 v => if dst = fmtF61 then ⟨v, false, false⟩ else ⟨v % 2 ^ fmtBits dst, false, false⟩

/-- The element draws 16 bits under RND 0b10 (R44). -/
def draws (dst : Nat) : Val → Bool
  | .int v => isFloat dst && v != 0 && floatDraws dst v.natAbs 0
  | .ring b v => isFloat dst && signed b v != 0 && floatDraws dst (signed b v).natAbs 0
  | .flt (.fin _ m e) => m != 0 && (if isInt dst then (cutAt m e 0).2.1 != 0 else floatDraws dst m e)
  | _ => false

/-! ## FP32 arithmetic, round to nearest even -/

/-- ±m × 2^e as an FP32 code. -/
def f32Of (v : FVal) : Nat := (toFloat fmtFp32 0 0 v).code

def f32Val (code : Nat) : FVal := decodeFloat fmtFp32 code

/-- A signed dyadic m × 2^e as a value; zero is +0. -/
def dyVal (m e : Int) : FVal := .fin (decide (m < 0)) m.natAbs e

/-- The signed mantissa of a finite value at exponent `e0`, at or below its own. -/
def manAt (neg : Bool) (m : Nat) (e e0 : Int) : Int :=
  let x : Int := m * (2 ^ (e - e0).toNat : Nat)
  if neg then -x else x

/-- The exact sum of two values, unrounded; a zero sum is −0 only of two negative zeros. -/
def addVal : FVal → FVal → FVal
  | .nan, _ => .nan
  | _, .nan => .nan
  | .inf a, .inf b => if a = b then .inf a else .nan
  | .inf a, _ => .inf a
  | _, .inf b => .inf b
  | .fin a m e, .fin b n f =>
    if m = 0 ∧ n = 0 then .fin (a && b) 0 0
    else
      let e0 := min e f
      dyVal (manAt a m e e0 + manAt b n f e0) e0

/-- The exact product of two values. -/
def mulVal : FVal → FVal → FVal
  | .nan, _ => .nan
  | _, .nan => .nan
  | .inf a, .inf b => .inf (a != b)
  | .inf a, .fin b n _ => if n = 0 then .nan else .inf (a != b)
  | .fin a m _, .inf b => if m = 0 then .nan else .inf (a != b)
  | .fin a m e, .fin b n f => .fin (a != b) (m * n) (e + f)

def negVal : FVal → FVal
  | .nan => .nan
  | .inf a => .inf (!a)
  | .fin a m e => .fin (!a) m e

def f32Add (a b : Nat) : Nat := f32Of (addVal (f32Val a) (f32Val b))
def f32Sub (a b : Nat) : Nat := f32Of (addVal (f32Val a) (negVal (f32Val b)))
def f32Mul (a b : Nat) : Nat := f32Of (mulVal (f32Val a) (f32Val b))

/-- a < b; false with a NaN. -/
def ltVal (a b : FVal) : Bool :=
  match a, b with
  | .nan, _ => false
  | _, .nan => false
  | .inf x, .inf y => x && !y
  | .inf x, _ => x
  | _, .inf y => !y
  | .fin x m e, .fin y n f =>
    let e0 := min e f
    decide (manAt x m e e0 < manAt y n f e0)

/-! ## Block scales (R36, R37) -/

/-- The value of an element under its E8M0 scale byte; 0xFF is NaN. -/
def scaled (scale : Nat) (v : FVal) : FVal :=
  if scale = 0xFF then .nan
  else match v with
    | .fin a m e => .fin a m (e + scale - 127)
    | x => x

/-- emax of R37. -/
def blockEmax (f : Nat) : Int :=
  match f with
  | 0x4 => 2
  | 0x5 => 2
  | 0x6 => 4
  | 0x7 => 8
  | _ => 15

def magOf : FVal → FVal
  | .fin _ m e => .fin false m e
  | .inf _ => .inf false
  | .nan => .nan

/-- The largest magnitude of a block; NaN if any value is (R37). -/
def maxAbs (vs : List FVal) : FVal :=
  vs.foldl (fun a v => if a = .nan ∨ v = .nan then .nan else if ltVal a (magOf v) then magOf v else a) (.fin false 0 0)

/-- The scale byte of a block of values (R37). -/
def blockScale (f : Nat) (vs : List FVal) : Nat :=
  match maxAbs vs with
  | .nan => 0xFF
  | .inf _ => 254
  | .fin _ m e => if m = 0 then 0 else (max (-127) (min 127 (Nat.log2 m + e - blockEmax f)) + 127).toNat

/-- A value divided by 2^(scale − 127). -/
def unscale (scale : Nat) (v : FVal) : FVal :=
  match v with
  | .fin a m e => .fin a m (e - scale + 127)
  | x => x

end Sys2Proof.Machine
end

