-- ==== Sys2Proof/Machine/ConvertOps.lean ====
section
/-! DEFINITION. Conversions of a whole result (R41 to R45): the bits of stochastic rounding from the partition's DRBG in
ascending output index (R44, R350), the conversion counters (R42, R43), and reading F61 elements (R39). -/

namespace Sys2Proof.Machine

/-- Elements converted in order; `bs` holds 2 bytes for each element that draws. -/
def convertWith (dst rnd : Nat) : Bytes → List Val → List Conv
  | _, [] => []
  | bs, v :: vs =>
    if rnd = 2 ∧ draws dst v then convert dst rnd (le bs 0 2) v :: convertWith dst rnd (bs.drop 2) vs
    else convert dst rnd 0 v :: convertWith dst rnd bs vs

/-- `n` at a conversion counter, when there are any. -/
def State.countSome (s : State) (p idx n : Nat) : State := if n = 0 then s else s.count (some p) idx n

/-- The values of a result of partition `p` converted to format `dst`: the codes, and the state with bits drawn and
conversions counted. -/
def State.convertList (s : State) (p dst rnd : Nat) (vals : List Val) : List Nat × State :=
  let need := if rnd = 2 then 2 * (vals.filter (draws dst)).length else 0
  let b := if need = 0 then ([], s) else s.drbgBytes p need
  let cs := convertWith dst rnd b.1 vals
  let s1 := b.2.countSome p cntConvSat (cs.filter (·.sat)).length
  (cs.map (·.code), s1.countSome p cntConvNan (cs.filter (·.nan)).length)

/-- Codes of format `f` as read from memory: F61 elements at or above p are reduced and counted (R39). -/
def State.readCodes (s : State) (p f : Nat) (cs : List Nat) : List Nat × State :=
  if f = fmtF61 then (cs.map (· % f61P), s.countSome p cntF61Noncanonical (cs.filter (fun c => decide (f61P ≤ c))).length)
  else (cs, s)

/-! ## Block-scaled results (R36, R37) -/

/-- A result written with block scales: blocks of 32 values along its row (R36, R37). Answers the values divided by their
block's scale, and the scales. amax is the exact largest magnitude, not its FP32 rounding, so a block whose largest value
is 2^31 − 1 has floor_log2 30: a choice of the model for sources wider than FP32 (notes/assumptions/62.md). -/
def blockValues (f : Nat) (vs : List FVal) : List Val × List Nat :=
  let blocks := groupsOf 32 (vs.length + 1) vs
  let scs := blocks.map (blockScale f)
  let vals := (List.zipWith (fun (b : List FVal) sc =>
    b.map (fun v => if sc = 0xFF then Val.flt (.fin false 0 0) else .flt (unscale sc v))) blocks scs).flatten
  (vals, scs)

/-- A value as a floating-point one, for a block scale. -/
def valFlt : Val → FVal
  | .int v => intVal v
  | .flt v => v
  | .ring b v => intVal (signed b v)
  | .f61 v => intVal v

/-- `l` cut into pieces of `n`. -/
def regroup {α : Type} (n : Nat) (l : List α) : List (List α) := groupsOf n (l.length + 1) l

end Sys2Proof.Machine
end

