-- ==== Sys2Proof/Machine/PanelOps.lean ====
section
/-! DEFINITION. Panels as shared operations: the statuses of tile commands (R65), the end of a tile (R78, R93). -/

namespace Sys2Proof.Machine

/-- A status met by a command that went on, or stops the Panel where it is no TRANSIENT one. -/
def State.tileStatus (s : State) (n status word : Nat) : State :=
  if status = stOk then s
  else
    let x := s.panel n
    let s1 := s.setPanel n { x with note := x.note ++ [status] }
    if isTransient status then s1 else s1.stopPanel n status word

/-- The TILE_RUN of a Panel. -/
def State.runOp (s : State) (n : Nat) : Option Op := (s.panel n).run.bind s.op

/-- Tile `t` of Panel `n` ends: its flags join the run's, are counted, and set the determinism flags (R78, R81, R93).
`split` is the form of R93. -/
def State.endTile (s : State) (n p : Nat) (t : Tile) (split : Bool) : State :=
  let x := s.panel n
  let s1 := s.setPanel n
    { x with
      sat := x.sat || t.sat, inexact := x.inexact || t.inexact
      tiles := x.tiles.filter (fun (u : Tile) => u.slot != t.slot) }
  let s2 := if t.sat then s1.countPart p cntPnlSat else s1
  let s3 := if t.inexact then s2.countPart p cntPnlInexact else s2
  match s.runOp n with
  | some o => s3.setDets o.det p o.tag [(detSplit, split), (detSat, t.sat), (detKBound, decide (1048576 < t.k))]
  | none => s3

/-- Slots `[a, a + n)` and `[b, b + m)` overlap. -/
def slotsHit (t : Tile) (slot n : Nat) : Bool := overlaps t.slot t.nslots slot n

end Sys2Proof.Machine
end

