-- ==== Sys2Proof/Machine/SeamOps.lean ====
section
/-! DEFINITION. Seam regions as shared operations (R84 to R91, R112): elements, addend forms, one atomic add, discarded
addends, and the end of a transfer. -/

namespace Sys2Proof.Machine

/-! ## Elements (R84, R85) -/

abbrev kindFx320 : Nat := 0
abbrev kindInt128 : Nat := 1
abbrev kindRing32 : Nat := 2
abbrev kindRing64 : Nat := 3
abbrev kindF61 : Nat := 4

/-- Bytes of an element. -/
def kindBytes (k : Nat) : Nat := [48, 24, 4, 8, 8].getD k 8

/-- Bytes of an element's value, before its status word. -/
def kindValueBytes (k : Nat) : Nat := [40, 16, 4, 8, 8].getD k 8

/-- The element has a status word. -/
def kindHasWord (k : Nat) : Bool := decide (k < 2)

/-- The format of a ring or field element. -/
def kindFmt (k : Nat) : Nat := [fmtFp32, fmtInt32, fmtRing32, fmtRing64, fmtF61].getD k fmtF61

-- the status flags [63:58], as bits 5 to 0 of `Addend.flags`
abbrev seamNan : Nat := 32
abbrev seamPinf : Nat := 16
abbrev seamNinf : Nat := 8
abbrev seamSat : Nat := 4
abbrev seamInexact : Nat := 2
abbrev seamHeadroom : Nat := 1

def countMax : Nat := 2 ^ 41 - 1

/-- COUNT above which HEADROOM is set (R87). -/
def headroomAt : Nat := 2 ^ 40

/-- An element's bytes as a value, flags and COUNT. -/
def elemOf (k : Nat) (bs : Bytes) : Addend :=
  let vb := kindValueBytes k
  if kindHasWord k then
    let w := le bs vb 8
    ⟨signed (8 * vb) (le bs 0 vb), w >>> 58, w % 2 ^ 41⟩
  else ⟨le bs 0 vb, 0, 0⟩

/-- The bytes of an element. -/
def elemBytes (k : Nat) (e : Addend) : Bytes :=
  let vb := kindValueBytes k
  if kindHasWord k then leBytes vb (wrap (8 * vb) e.val) ++ leBytes 8 (e.flags * 2 ^ 58 + e.count)
  else leBytes vb (wrap (8 * vb) e.val)

/-- One add (R85 to R87): exact, modulo the width; flags by OR, counts by a saturating sum, HEADROOM above 2^40. -/
def elemAdd (k : Nat) (e a : Addend) : Addend :=
  if kindHasWord k then
    let c := min (e.count + a.count) countMax
    let f := (e.flags ||| a.flags) ||| (if headroomAt < c then seamHeadroom else 0)
    ⟨signed (8 * kindValueBytes k) (wrap (8 * kindValueBytes k) (e.val + a.val)), f, c⟩
  else if k = kindF61 then ⟨(e.val % (f61P : Int) + a.val % (f61P : Int)) % (f61P : Int), 0, 0⟩
  else ⟨wrap (8 * kindValueBytes k) (e.val + a.val), 0, 0⟩

/-! ## Addend forms (R84, R263) -/

/-- A floating-point value in units of 2^-149, with the flags that it brings. -/
def fxOf : FVal → Int × Nat
  | .nan => (0, seamNan)
  | .inf neg => (0, if neg then seamNinf else seamPinf)
  | .fin neg m e =>
    let v : Int := ((if 0 ≤ e + 149 then m * 2 ^ (e + 149).toNat else m / 2 ^ (-(e + 149)).toNat : Nat) : Int)
    (if neg then -v else v, 0)

/-- The forms that a kind accepts: 0 one element in FMTA, 1 hi/lo pair, 2 INT64, 3 merge. -/
def formOk (k form f : Nat) : Bool :=
  match form with
  | 0 =>
    (k == kindFx320 && (f == fmtFp32 || f == fmtBf16)) || (k == kindInt128 && f == fmtInt32)
      || (k == kindRing32 && f == fmtRing32) || (k == kindRing64 && f == fmtRing64) || (k == kindF61 && f == fmtF61)
  | 1 => k == kindFx320
  | 2 => k == kindInt128
  | 3 => kindHasWord k
  | _ => false

/-- Bytes of one addend. -/
def formBytes (k form f : Nat) : Nat :=
  match form with
  | 0 => fmtBits f / 8
  | 1 => 8
  | 2 => 8
  | _ => kindBytes k

/-- The addend that `bs` holds. -/
def addendOf (k form f : Nat) (bs : Bytes) : Addend :=
  match form with
  | 0 =>
    if k = kindFx320 then
      let x := fxOf (decodeFloat f (leNat bs))
      ⟨x.1, x.2, 1⟩
    else if k = kindInt128 then ⟨signed 32 (leNat bs), 0, 1⟩
    else if k = kindF61 then ⟨(leNat bs % f61P : Nat), 0, 0⟩
    else ⟨(leNat bs : Nat), 0, 0⟩
  | 1 =>
    let hi := fxOf (decodeFloat fmtFp32 (le bs 0 4))
    let lo := fxOf (decodeFloat fmtFp32 (le bs 4 4))
    ⟨hi.1 + lo.1, hi.2 ||| lo.2, 1⟩
  | 2 => ⟨signed 64 (leNat bs), 0, 1⟩
  | _ => elemOf k bs

/-- The addends of a transfer, each with its element, from its bytes. -/
def addendsOf (k form f first : Nat) (bs : Bytes) : List (Nat × Addend) :=
  (piecesOf (formBytes k form f) bs).mapIdx (fun i b => (first + i, addendOf k form f b))

/-- Non-canonical F61 addends counted (R39). -/
def State.countF61 (s : State) (p k : Nat) (bs : Bytes) : State :=
  if k = kindF61 then
    s.countSome p cntF61Noncanonical ((piecesOf 8 bs).filter (fun b => decide (f61P ≤ leNat b))).length
  else s

/-! ## One atomic add (R86) -/

/-- One addend applied to the element of kind `k` at a partition address: a poisoned or uncorrectable line takes no add
(R201). -/
def State.seamAdd (s : State) (p tier k addr : Nat) (a : Addend) : State × Nat :=
  let r := s.memRead p tier addr (kindBytes k)
  if !r.2.good then (r.1, r.2.status)
  else
    let e := elemOf k r.2.data
    let s1 := if k = kindF61 ∧ f61P ≤ leNat r.2.data then r.1.countPart p cntF61Noncanonical else r.1
    let e' := elemAdd k e a
    let s2 := if bit e'.flags 0 && !bit e.flags 0 then s1.countPart p cntSeamHeadroom else s1
    ((s2.memWrite p tier addr (elemBytes k e')).1, r.2.status)

/-! ## Transfers -/

def regionKey (p region : Nat) : Nat := p * 1024 + region

/-- The region that an ID of 0 to 1,023 names; no other ID names one (R89). -/
def State.region (s : State) (p region : Nat) : Option Region :=
  if region < 1024 then tfind s.regions (regionKey p region) else none

def State.setRegion (s : State) (p region : Nat) (r : Region) : State :=
  { s with regions := tset (regionKey p region) r s.regions }

/-- A transfer opened; its number is `nextX` before. -/
def State.newXfer (s : State) (src : XferSrc) (dst : XferDst) (l : List (Nat × Addend)) : State :=
  { s with xfers := tset s.nextX ⟨src, dst, l, 0, 0, false, [], []⟩ s.xfers, nextX := s.nextX + 1 }

/-- The status with which a transfer ends (R91, R399). -/
def Xfer.result (x : Xfer) : Nat := mergeStatus (x.status ++ (if x.late then [stSeamClosed] else []))

/-- A transfer whose last addend is decided ends: HOST_SEAM_ADD completes with the committed count (R263), a REDUCE_SEAM
retires and its tile ends (R63, R78), stopping its Panel where addends were lost (R91); addends of a PXT
message that were not committed are placement failures (R294); the tile of an expansion is gone with its adds (R143). -/
def State.endXfer (s : State) (id : Nat) : State :=
  match tfind s.xfers id with
  | none => s
  | some x =>
    if x.rest.isEmpty ∧ x.held = 0 then
      let s1 := { s with xfers := tdel id s.xfers }
      match x.src with
      | .host op => s1.finish op x.result (leBytes 8 x.done)
      | .panel n word =>
        let y := s1.panel n
        match y.inflight.find? (fun (i : InFlight) => i.opc == 7 && i.word == word) with
        | none => s1
        | some i =>
          let s2 := s1.setPanel n { y with inflight := y.inflight.filter (fun (j : InFlight) => j.word != word) }
          let s3 := match s.panelPart n, y.tiles.find? (fun (t : Tile) => t.slot == i.key) with
            | some p, some t => s2.endTile n p t false
            | _, _ => s2
          (s3.tileStatus n x.result word).settle n
      | .pxt entry => s1.endPxtAdds entry x.failed
      | _ => s1
    else s

/-- The addend of element `e` of transfer `id` was decided with `status`; `ok` when it was committed. -/
def State.noteXfer (s : State) (id e status : Nat) (ok : Bool) : State :=
  match tfind s.xfers id with
  | none => s
  | some x => { s with
      xfers := tset id
        { x with
          done := x.done + b2n ok, failed := if ok then x.failed else x.failed ++ [(e, false)]
          status := if status = stOk then x.status else x.status ++ [status] } s.xfers }

/-- The event of a transfer that loses its first addend (R91), from the Seam unit that discarded it. -/
def State.lateEvent (s : State) (p region tier addr : Nat) : State :=
  s.raise (srcSeam (seamUnit tier (s.phys p tier addr))) evSeamLateAdd p (leBytes 1 p ++ leBytes 2 region)

/-- Addends of the PXT message of entry `i` are discarded: whether they are its first, which raises the event (R91). -/
def State.lateMsg (s : State) (i : Nat) : Bool × State :=
  match tfind s.fab.rx i with
  | some e => (!e.late, s.setRx i { e with late := true })
  | none => (true, s)

/-- The addend of element `e` discarded (R91): counted, and reported once for its transfer; the packets of one PXT message
are one transfer. -/
def State.lateAdd (s : State) (id p region tier addr e : Nat) : State :=
  match tfind s.xfers id with
  | none => s
  | some x =>
    let s1 := s.countPart p cntSeamLateAdd
    let s2 := { s1 with xfers := tset id { x with late := true, failed := x.failed ++ [(e, true)] } s1.xfers }
    let m := match x.src with
      | .pxt i => s2.lateMsg i
      | _ => (!x.late, s2)
    if m.1 then m.2.lateEvent p region tier addr else m.2

/-- A LASTING fault of the Seam unit of a tier: every tier A unit owns lines of every accumulator, which lies in whole
blocks of 64 KiB (R99, R192), so every round aborts; tier B units hold no accumulator (R112). -/
def State.seamFault (s : State) (tier : Nat) : State := if tier = 0 then s.abortAll causeShardFault else s

/-- One addend at its Seam unit: `err` is a check of the unit (R26, R27). Answers the status and whether the add is
committed. -/
def State.unitAdd (s : State) (p tier k addr : Nat) (a : Addend) (err : Option ErrClass) : State × Nat × Bool :=
  match err with
  | some .lasting => ((s.countError none cntLasting).seamFault tier, stLastingEngine, false)
  | _ =>
    let t := decide (err = some .transient)
    let s1 := if t then s.countError none cntTransient else s
    let r := s1.seamAdd p tier k addr a
    let ok := r.2 == stOk || isTransient r.2
    (r.1, if r.2 = stOk ∧ t then stTransientEngine else r.2, ok)

end Sys2Proof.Machine
end

