-- ==== Sys2Proof/Machine/Seam.lean ====
section
/-! DEFINITION. The Seam commands: SEAM_REGION and its end of zeroing (R89), RELEASE, SEAM_FINALISE (R90), the end of the
drain, and the arrival of one addend (R86, R87, R91). -/

namespace Sys2Proof.Machine

/-- A lock that refuses a write, or any access but the excepted reads (R100, R170): 0 for none. -/
def State.lockStatus (s : State) (p tier a n : Nat) : Nat :=
  if s.aggLocked p tier a n then stAggLocked else if s.gruLocked p tier a n then stGruLocked else stOk

/-- `[a, a + n)` zeroed from a line start (R89, R90). The zeroing writes whole lines and so clears the poison (R201); a last
line that the region fills in part keeps the bytes behind the region, unless it was poisoned (notes/assumptions/68.md). -/
def State.zeroSpan (s : State) (p tier a n : Nat) : State :=
  let last := a + n / 64 * 64
  let s1 := s.zeroRange p tier a (n / 64 * 64)
  if n % 64 = 0 then s1
  else (s1.memWrite p tier last (zeros (n % 64) ++
    (if s1.poisoned tier (s1.phys p tier last) then zeros (64 - n % 64) else s1.ptBytes p tier (last + n % 64) (64 - n % 64)))).1

/-! ## SEAM_REGION (R89) -/

def Region.bytes (r : Region) : Nat := r.elems * kindBytes r.kind

/-- The checks of R89 after those of R258, without RELEASE. -/
def State.regionStatus (s : State) (p : Nat) (d : Bytes) : Nat :=
  let a := addrAt d 8
  let n := le d 16 8
  let k := byteAt d 26
  if !a.plain ∨ a.addr % 64 ≠ 0 ∨ n = 0 ∨ 2 ^ 34 < n ∨ 1023 < le d 24 2 ∨ 4 ≤ byteAt d 27 ∨ !zeroAt d 32 32 then stHifField
  else if (s.region p (le d 24 2)).isSome then stSeamRegionBusy
  else if 4 < k then stSeamFormat
  else if !s.inUnits p a.tier a.addr (n * kindBytes k) then stSeamSpace
  else if bit (byteAt d 27) 0 then s.lockStatus p a.tier a.addr (n * kindBytes k)
  else stOk

/-- SEAM_REGION that defines a region: it opens at once, or after CLEAR's zeroing. -/
def execSeamRegion (op : Nat) (s : State) : Res :=
  .next (onReady 0x68 op s (fun o =>
    if bit (byteAt o.bytes 27) 1 then s
    else
      let p := o.fn - 1
      let d := o.bytes
      let st := s.regionStatus p d
      if st ≠ stOk then s.finish op st
      else
        let clear := bit (byteAt d 27) 0
        let r : Region :=
          ⟨(addrAt d 8).tier, (addrAt d 8).addr, le d 16 8, byteAt d 26, le d 28 4, .opened, clear, s.nextDef, none,
            if clear then some op else none, []⟩
        let s1 := { s.setRegion p (le d 24 2) r with nextDef := s.nextDef + 1 }
        if clear then s1.running op o else s1.finish op stOk))

/-- One addend at the element of a region: a round or key set that has come to lie over it since its transfer was checked
refuses it (R100, R170). -/
def State.regionAdd (s : State) (p tier k addr : Nat) (a : Addend) (err : Option ErrClass) : State × Nat × Bool :=
  let lock := s.lockStatus p tier addr (kindBytes k)
  if lock ≠ stOk then (s, lock, false) else s.unitAdd p tier k addr a err

/-- One waiting addend applied when its region opens (R89). -/
def State.applyWaiting (p : Nat) (r : Region) (s : State) (w : Nat × Nat × Addend) : State :=
  let x := s.regionAdd p r.tier r.kind (r.base + w.2.1 * kindBytes r.kind) w.2.2 none
  let s1 := x.1.noteXfer w.1 w.2.1 x.2.1 x.2.2
  match tfind s1.xfers w.1 with
  | some y => ({ s1 with xfers := tset w.1 { y with held := y.held - 1 } s1.xfers }).endXfer w.1
  | none => s1

/-- Every element of a clearing region is zero: the addends that waited are applied, in the order they came, and the
SEAM_REGION completes. Where a round was opened over the region meanwhile nothing is zeroed, and the descriptor ends with
ST_AGG_LOCKED (R100, notes/assumptions/67.md). -/
def execSeamRegionClearDone (p region : Nat) (s : State) : Res :=
  .next (match s.region p region with
    | none => s
    | some r =>
      if !r.clearing then s
      else
        let lock := s.lockStatus p r.tier r.base r.bytes
        let s0 := if lock = stOk then s.zeroSpan p r.tier r.base r.bytes else s
        let s1 := s0.setRegion p region { r with clearing := false, waiting := [], clearOp := none }
        let s2 := r.waiting.foldl (State.applyWaiting p r) s1
        match r.clearOp with
        | some op => s2.finish op lock
        | none => s2)

/-- The checks of R89 after those of R258, with RELEASE. -/
def State.releaseStatus (s : State) (p : Nat) (d : Bytes) : Nat :=
  if 1023 < le d 24 2 ∨ 4 ≤ byteAt d 27 ∨ !zeroAt d 32 32 then stHifField
  else if (s.region p (le d 24 2)).isNone then stSeamRegionId else stOk

/-- SEAM_REGION with RELEASE: the region closes to new addends; one that another descriptor is ending is waited for. -/
def execSeamRegionRelease (op : Nat) (s : State) : Res :=
  .next (onReady 0x68 op s (fun o =>
    if !bit (byteAt o.bytes 27) 1 then s
    else
      let p := o.fn - 1
      let st := s.releaseStatus p o.bytes
      if st ≠ stOk then s.finish op st
      else match s.region p (le o.bytes 24 2) with
        | none => s
        | some r =>
          if r.op.isSome then s
          else (s.setRegion p (le o.bytes 24 2) { r with phase := .releasing, op := some op }).running op o))

/-! ## SEAM_FINALISE (R90) -/

/-- The OUT formats of a kind. -/
def outOk (k f : Nat) : Bool :=
  if k = kindFx320 then f == fmtFp32 || f == fmtBf16 || f == fmtFp16
  else if k = kindInt128 then f == fmtInt8 || f == fmtInt16 || f == fmtInt32 || f == fmtFp32
  else convOk (kindFmt k) f

/-- An element as the value that is converted. -/
def elemVal (k : Nat) (e : Addend) : Val :=
  if k = kindFx320 then
    if bit e.flags 5 ∨ (bit e.flags 4 ∧ bit e.flags 3) then .flt .nan
    else if bit e.flags 4 then .flt (.inf false)
    else if bit e.flags 3 then .flt (.inf true)
    else .flt (dyVal e.val (-149))
  else if k = kindInt128 then .int e.val
  else valOf (kindFmt k) e.val.toNat

/-- A lock over DEST, over the elements written, or over the whole region where REOPEN zeroes it (R100, R170). -/
def State.finaliseLock (s : State) (p : Nat) (r : Region) (d : Bytes) : Nat :=
  let a := addrAt d 8
  let n := le d 24 8
  let st := s.lockStatus p a.tier a.addr (packedBytes (fmtOf (byteAt d 34)) n)
  if st ≠ stOk then st
  else if bit (byteAt d 35) 0 then s.lockStatus p r.tier r.base r.bytes
  else s.lockStatus p r.tier (r.base + le d 16 8 * kindBytes r.kind) (n * kindBytes r.kind)

/-- The checks of R90 after those of R258. -/
def State.finaliseStatus (s : State) (p : Nat) (d : Bytes) : Nat :=
  let a := addrAt d 8
  let first := le d 16 8
  let n := le d 24 8
  let out := byteAt d 34
  let f := fmtOf out
  if !a.plain ∨ n = 0 ∨ 2 ≤ byteAt d 35 ∨ !zeroAt d 36 28 then stHifField
  else match s.region p (le d 32 2) with
    | none => stSeamRegionId
    | some r =>
      if fmtaStatus out false ≠ stOk then fmtaStatus out false
      else if !outOk r.kind f then stFmtConversion
      else if r.elems < first + n then stSeamRange
      else if !s.inUnits p a.tier a.addr (packedBytes f n) then stHifSpace
      else
        s.finaliseLock p r d

/-- SEAM_FINALISE: the region closes to new addends. -/
def execSeamFinalise (op : Nat) (s : State) : Res :=
  .next (onReady 0x69 op s (fun o =>
    let p := o.fn - 1
    let st := s.finaliseStatus p o.bytes
    if st ≠ stOk then s.finish op st
    else match s.region p (le o.bytes 32 2) with
      | none => s
      | some r =>
        if r.op.isSome then s
        else (s.setRegion p (le o.bytes 32 2) { r with phase := .finalising, op := some op }).running op o))

/-- An element lies on a line that cannot be read. -/
def State.badElem (s : State) (p : Nat) (r : Region) (i : Nat) : Bool :=
  (linesOf (r.base + i * kindBytes r.kind) (kindBytes r.kind)).any (fun ln => s.poisoned r.tier (s.phys p r.tier (ln * 64)))

/-- The entries of `l` in order, with `d` at the places that `bad` marks. -/
def mergeWith {α : Type} (d : α) : List Bool → List α → List α
  | [], _ => []
  | true :: bad, cs => d :: mergeWith d bad cs
  | false :: bad, c :: cs => c :: mergeWith d bad cs
  | false :: bad, [] => d :: mergeWith d bad []

/-- The values of a packed array divided by their block scales, for an OUT format with BS: blocks of 32 consecutive
elements, an element that could not be read counting as 0 (R36, R37). SEAM_FINALISE names no address for the scales, so none
is written (notes/assumptions/26.md). -/
def finaliseVals (fmta : Nat) (bad : List Bool) (vals : List Val) : List Val :=
  if bsOf fmta then
    let all := mergeWith (Val.int 0) bad vals
    let scaled := (blockValues (fmtOf fmta) (all.map valFlt)).1
    (List.zip bad scaled).filterMap (fun e => if e.1 then none else some e.2)
  else vals

/-- The write of SEAM_FINALISE `o` on region `r`. Answers the status and the index of the first bad element. -/
def State.finaliseWrite (s : State) (p : Nat) (r : Region) (o : Op) : State × Nat × Option Nat :=
  let d := o.bytes
  let first := le d 16 8
  let n := le d 24 8
  let f := fmtOf (byteAt d 34)
  let rnd := rndOf (byteAt d 34)
  let z := kindBytes r.kind
  let rd := s.memRead p r.tier (r.base + first * z) (n * z)
  let idx := (List.range n).map (first + ·)
  let bad := idx.map (rd.1.badElem p r)
  let good := idx.filter (fun i => !rd.1.badElem p r i)
  let elems := good.map (fun i => elemOf r.kind (slice rd.2.data ((i - first) * z) z))
  let s1 := if r.kind = kindF61 then
      rd.1.countSome p cntF61Noncanonical (elems.filter (fun e => decide ((f61P : Int) ≤ e.val))).length
    else rd.1
  let c := s1.convertList p f rnd (finaliseVals (byteAt d 34) bad (elems.map (elemVal r.kind)))
  let w := c.2.memWrite p (addrAt d 8).tier (addrAt d 8).addr (packElems f (mergeWith (nanCode f) bad c.1))
  let rounded := if r.kind = kindFx320 then true else if r.kind = kindInt128 then isFloat f else convRounds (kindFmt r.kind) f
  let s2 := w.1.setDets o.det p o.tag
    [(detStochastic, rnd == 2 && rounded), (detSat, elems.any (fun e => bit e.flags 2)),
      (detKBound, decide (1048576 < r.kTotal)), (detHeadroom, elems.any (fun e => bit e.flags 0))]
  (s2, mergeStatus [rd.2.status, w.2.status], idx.find? (rd.1.badElem p r))

/-- SEAM_FINALISE `o` ends on region `r`: it writes, and reopens with REOPEN. Where a round was opened over what it would
touch since it was accepted, it touches nothing and ends with ST_AGG_LOCKED, the region closed (R100,
notes/assumptions/67.md). -/
def State.finaliseEnd (s : State) (p region op : Nat) (r : Region) (o : Op) : State :=
  let lock := s.finaliseLock p r o.bytes
  if lock ≠ stOk then (s.setRegion p region { r with phase := .closed, op := none }).finish op lock
  else
    let w := s.finaliseWrite p r o
    let reopen := bit (byteAt o.bytes 35) 0
    let s1 := if reopen then w.1.zeroSpan p r.tier r.base r.bytes else w.1
    let s2 := s1.setRegion p region { r with phase := if reopen then .opened else .closed, op := none }
    let mem := w.2.1 = stMemUncorrectable ∨ w.2.1 = stMemPoison
    s2.finish op w.2.1 (match w.2.2 with
      | some i => if mem then leBytes 8 i else []
      | none => [])

/-- Every addend that a Seam unit had accepted is committed: FINALISE writes, and reopens with REOPEN; RELEASE deletes. -/
def execSeamCloseDrainDone (p region : Nat) (errs : List LineErr) (s0 : State) : Res :=
  .next (let s := s0.arise errs
    match s.region p region with
    | none => s
    | some r =>
      match r.op with
      | none => s
      | some op =>
        if r.clearing then s
        else match r.phase with
          | .releasing => ({ s with regions := tdel (regionKey p region) s.regions }).finish op stOk
          | .finalising =>
            match s.op op with
            | none => s
            | some o => s.finaliseEnd p region op r o
          | _ => s)

/-! ## One addend (R86) -/

/-- The next addend of a transfer reaches its Seam unit. -/
def execSeamAddendApply (xfer : Nat) (err : Option ErrClass) (errs : List LineErr) (s0 : State) : Res :=
  .next (let s := s0.arise errs
    match tfind s.xfers xfer with
    | none => s
    | some x =>
      match x.rest with
      | [] => s.endXfer xfer
      | (e, a) :: rest =>
        let s1 := { s with xfers := tset xfer { x with rest := rest } s.xfers }
        match x.dst with
        | .region p region defNo tier base kind =>
          match s.region p region with
          | some r =>
            if r.defNo = defNo ∧ r.phase = .opened then
              if r.clearing then
                ({ s1 with xfers := tset xfer { x with rest := rest, held := x.held + 1 } s1.xfers }).setRegion p region
                  { r with waiting := r.waiting ++ [(xfer, e, a)] }
              else
                let u := s1.regionAdd p tier kind (base + e * kindBytes kind) a err
                (u.1.noteXfer xfer e u.2.1 u.2.2).endXfer xfer
            else (s1.lateAdd xfer p region tier (base + e * kindBytes kind) e).endXfer xfer
          | none => (s1.lateAdd xfer p region tier (base + e * kindBytes kind) e).endXfer xfer
        | .acc rid =>
          let r := s.round rid
          let u := s1.unitAdd (rid / 2) 0 (if r.pol.ring64 then kindRing64 else kindRing32) (r.accBase + e * r.pol.elem) a err
          (u.1.noteXfer xfer e u.2.1 u.2.2).endXfer xfer)

end Sys2Proof.Machine
end

