-- ==== Sys2Proof/Machine/HostDma.lean ====
section
/-! DEFINITION. The descriptors of the host chapter (R262 to R264, R409) and weight images (R333, R334). -/

namespace Sys2Proof.Machine

/-- NOP completes at dispatch. -/
def execNop (op : Nat) (s : State) : Res := .next (onReady 0x00 op s (fun _ => s.finish op stOk))

/-! ## DMA -/

/-- The lock of a range against a transfer that reads or writes it (R12, R100, R170), for a source that leaves the module its
seal (R334), and the memory key of the tier (R327). -/
def State.dmaLock (s : State) (p tier a n : Nat) (out : Bool) : Nat :=
  if s.aggLocked p tier a n then stAggLocked
  else if s.gruLocked p tier a n then stGruLocked
  else if out && s.sealedHit p tier a n then stSecSealed
  else if !s.memKey p tier then stSecSlotAttr
  else stOk

/-- DETAIL of a DMA (R259, R409). -/
def dmaDetail (status line : Nat) : Bytes :=
  if status = stMemUncorrectable ∨ status = stMemPoison then leBytes 8 line else []

/-- A transfer whose bytes are moving: its status and DETAIL wait for DMA_TRANSFER_DONE. -/
def State.moving (s : State) (op : Nat) (o : Op) (status line : Nat) : State :=
  s.setOp op { o with phase := .running, status := status, detail := dmaDetail status line }

/-- The status of the writes of a DMA: a line that was written in part and could not be read is poisoned and not cleared
(R409). -/
def destStatus (w : ReadRes) : Nat := if w.status = stMemUncorrectable then stMemPoison else w.status

/-- DMA_IN: `data` is what the read of host memory returns. -/
def execDmaIn (op : Nat) (data : Bytes) (s : State) : Res :=
  .next (onReady 0x01 op s (fun o =>
    let p := o.fn - 1
    let a := addrAt o.bytes 16
    let n := le o.bytes 24 8
    let lock := s.dmaLock p a.tier a.addr n false
    if lock ≠ stOk then s.finish op lock
    else if !s.reachable o.fn then s.finish op stHifHostUnreachable
    else
      let w := s.memWrite p a.tier a.addr (slice data 0 n)
      w.1.moving op o (destStatus w.2) w.2.line))

/-- DMA_OUT: 64 zero bytes in place of each line that cannot be read. -/
def execDmaOut (op : Nat) (errs : List LineErr) (s0 : State) : Res :=
  let s := s0.arise errs
  .next (onReady 0x02 op s (fun o =>
    let p := o.fn - 1
    let a := addrAt o.bytes 16
    let n := le o.bytes 24 8
    let lock := s.dmaLock p a.tier a.addr n true
    if lock ≠ stOk then s.finish op lock
    else if !s.reachable o.fn then s.finish op stHifHostUnreachable
    else
      let r := s.memRead p a.tier a.addr n
      (r.1.put (.hostWrite o.fn (le o.bytes 8 8) r.2.data)).moving op o r.2.status r.2.line))

/-- The status of a DMA_MOVE and its first line: ST_MEM_UNCORRECTABLE of the source, else ST_MEM_POISON of either. -/
def moveResult (r w : ReadRes) : Nat × Nat :=
  if r.status = stMemUncorrectable ∨ r.status = stMemPoison then (r.status, r.line)
  else if destStatus w = stMemPoison then (stMemPoison, w.line)
  else (mergeStatus [r.status, w.status], 0)

/-- DMA_MOVE. -/
def execDmaMove (op : Nat) (errs : List LineErr) (s0 : State) : Res :=
  let s := s0.arise errs
  .next (onReady 0x03 op s (fun o =>
    let p := o.fn - 1
    let a := addrAt o.bytes 8
    let b := addrAt o.bytes 16
    let n := le o.bytes 24 8
    let l1 := s.dmaLock p a.tier a.addr n true
    let l2 := s.dmaLock p b.tier b.addr n false
    let lock := if s.aggLocked p b.tier b.addr n ∧ l1 ≠ stAggLocked then l2 else if l1 = stOk then l2 else l1
    if lock ≠ stOk then s.finish op lock
    else
      let r := s.memRead p a.tier a.addr n
      let w := r.1.memWrite p b.tier b.addr r.2.data
      let m := moveResult r.2 w.2
      w.1.moving op o m.1 m.2))

/-- The last byte of a DMA is written: the descriptor completes. -/
def execDmaTransferDone (op : Nat) (s : State) : Res :=
  .next (match s.op op with
    | some o =>
      if o.phase = .running ∧ 1 ≤ o.opcode ∧ o.opcode ≤ 3 then s.finish op o.status o.detail else s
    | none => s)

/-! ## HOST_SEAM_ADD (R263) -/

/-- The checks of R263 after those of R258, and the locks of R264. -/
def State.hostAddStatus (s : State) (p : Nat) (d : Bytes) : Nat :=
  let n := le d 24 4
  let form := byteAt d 30
  let fmta := byteAt d 31
  if n = 0 ∨ 2 ^ 24 < n ∨ 3 < form ∨ (form ≠ 0 ∧ fmta ≠ 0) then stHifField
  else if form = 0 ∧ fmtaStatus fmta true ≠ stOk then fmtaStatus fmta true
  else match s.region p (le d 28 2) with
    | none => stSeamRegionId
    | some r =>
      if !formOk r.kind form (fmtOf fmta) then stSeamFormat
      else if r.elems < le d 16 8 + n then stSeamRange
      else s.lockStatus p r.tier r.base r.bytes

/-- HOST_SEAM_ADD: its addends set out for their Seam units. -/
def execHostSeamAdd (op : Nat) (data : Bytes) (s : State) : Res :=
  .next (onReady 0x04 op s (fun o =>
    let p := o.fn - 1
    let d := o.bytes
    let st := s.hostAddStatus p d
    if st ≠ stOk then s.finish op st
    else if !s.reachable o.fn then s.finish op stHifHostUnreachable
    else match s.region p (le d 28 2) with
      | none => s
      | some r =>
        let form := byteAt d 30
        let f := fmtOf (byteAt d 31)
        let bs := slice data 0 (le d 24 4 * formBytes r.kind form f)
        let s1 := (s.countF61 p r.kind bs).newXfer (.host op) (.region p (le d 28 2) r.defNo r.tier r.base r.kind)
          (addendsOf r.kind form f (le d 16 8) bs)
        s1.running op o))

/-! ## Weight images (R333, R334) -/

def weightKey (p id : Nat) : Nat := p * 64 + id

/-- The checks of a WEIGHT_LOAD without RELEASE. -/
def State.weightStatus (s : State) (p : Nat) (d : Bytes) : Nat :=
  let host := bit (byteAt d 10) 1
  let src := addrAt d 16
  let dst := addrAt d 24
  let n := le d 32 8
  let k := s.slot (byteAt d 9)
  if 63 < byteAt d 8 ∨ 4 ≤ byteAt d 10 ∨ !zeroAt d 11 5 ∨ !zeroAt d 40 24 ∨ n < 16 ∨ 2 ^ 34 < n ∨ (!host ∧ !src.plain)
      ∨ !dst.plain then stSecField
  else if (tfind s.sec.weights (weightKey p (byteAt d 8))).isSome then stSecWeightId
  else if !k.usable engWeight p then stSecSlotAttr
  else if s.sealedHit p dst.tier dst.addr n then stSecSealed
  else
    let l := s.lockStatus p dst.tier dst.addr n
    if l ≠ stOk then l else if host then stOk else s.lockStatus p src.tier src.addr (n + 32)

/-- The image decrypted into DST, or DST blanked where the tag fails or the image could not be read. -/
def State.weightWrite (s : State) (op p : Nat) (d image : Bytes) (read : Nat) : State :=
  let dst := addrAt d 24
  let n := le d 32 8
  let key := (s.slot (byteAt d 9)).key
  let bad := read = stMemUncorrectable ∨ read = stMemPoison
  match (if bad ∨ read = stSecSlotAttr then none else gcmOpen key (slice image 0 12) [] (slice image 32 n) (slice image 16 16)) with
  | none => (s.blankRange p dst.tier dst.addr n).finish op (if bad ∨ read = stSecSlotAttr then read else stSecWeightAuth)
  | some plain =>
    let w := s.memWrite p dst.tier dst.addr plain
    let s1 := { w.1 with
      sec := { w.1.sec with
        weights := tset (weightKey p (byteAt d 8)) ⟨dst.tier, dst.addr, n, sha384 plain⟩ w.1.sec.weights } }
    s1.finish op (mergeStatus [read, w.2.status])

/-- WEIGHT_LOAD: `data` is the image in host memory where HOST names it. -/
def execWeightLoad (op : Nat) (data : Bytes) (errs : List LineErr) (s0 : State) : Res :=
  let s := s0.arise errs
  .next (onReady 0x06 op s (fun o =>
    let p := o.fn - 1
    let d := o.bytes
    let n := le d 32 8
    if bit (byteAt d 10) 0 then s
    else
      let st := s.weightStatus p d
      if st ≠ stOk then s.finish op st
      else
        let host := bit (byteAt d 10) 1
        if host ∧ !s.reachable o.fn then s.finish op stHifHostUnreachable
        else
          let r := if host then (s, { readInit with data := slice data 0 (n + 32) })
            else s.memRead p (addrAt d 16).tier (addrAt d 16).addr (n + 32)
          if zeroAt r.2.data 12 4 then r.1.weightWrite op p d r.2.data r.2.status else r.1.finish op stSecField))

/-- A sealed weight range blanked, unsealed, its digest removed (R334). -/
def State.dropWeight (s : State) (p id : Nat) : State :=
  match tfind s.sec.weights (weightKey p id) with
  | none => s
  | some w =>
    let s1 := s.blankRange p w.tier w.base w.len
    { s1 with sec := { s1.sec with weights := tdel (weightKey p id) s1.sec.weights } }

/-- WEIGHT_LOAD with RELEASE: a range that a round or an evaluator has locked since is not blanked (R100, R170). -/
def execWeightRelease (op : Nat) (s : State) : Res :=
  .next (onReady 0x06 op s (fun o =>
    let p := o.fn - 1
    let d := o.bytes
    if !bit (byteAt d 10) 0 then s
    else if 63 < byteAt d 8 ∨ 4 ≤ byteAt d 10 ∨ !zeroAt d 11 5 ∨ !zeroAt d 40 24 then s.finish op stSecField
    else match tfind s.sec.weights (weightKey p (byteAt d 8)) with
      | none => s.finish op stSecWeightId
      | some w =>
        let l := s.lockStatus p w.tier w.base w.len
        if l ≠ stOk then s.finish op l else (s.dropWeight p (byteAt d 8)).finish op stOk))

end Sys2Proof.Machine
end

