-- ==== Sys2Proof/Machine/FuncOps.lean ====
section
/-! DEFINITION. The functions 0x3 to 0x7 of EPILOGUE (R61): GELU in both forms, SiLU, sigmoid and tanh, computed in fixed
point with 640 fraction bits, and the FP32 patterns within 2 ULP of them. -/

namespace Sys2Proof.Machine

/-! ## Fixed point -/

/-- 1. -/
def fxOne : Nat := 2 ^ 640

def fxMul (a b : Nat) : Nat := a * b / fxOne

/-- e^(−y): the series at y / 1024, squared ten times; 0 from y = 1024 on. -/
def fxExpNeg (y : Nat) : Nat :=
  if 1024 * fxOne ≤ y then 0
  else
    let r := y / 1024
    let t := (List.range 130).reverse.foldl (fun t k => fxOne - r * t / (fxOne * (k + 1))) fxOne
    (List.range 10).foldl (fun t _ => fxMul t t) t

/-- arctan(1 / q) by its series. -/
def fxAtanInv (q : Nat) : Int :=
  (List.range 150).foldl (fun (t : Int) k =>
    let term : Int := ((fxOne / ((2 * k + 1) * q ^ (2 * k + 1)) : Nat) : Int)
    if k % 2 = 0 then t + term else t - term) 0

/-- π by Machin's formula. -/
def fxPi : Nat := (16 * fxAtanInv 5 - 4 * fxAtanInv 239).toNat

/-- The integer square root of a number below 2^1400, bit by bit. -/
def isqrt (n : Nat) : Nat :=
  (List.range 700).reverse.foldl (fun r b => if (r + 2 ^ b) * (r + 2 ^ b) ≤ n then r + 2 ^ b else r) 0

/-- The square root of 2 / π. -/
def fxRoot2Pi : Nat := isqrt (2 * fxOne * fxOne * fxOne / fxPi)

/-- 1 / (1 + e^(−x)) of a magnitude and a sign; it stays below 1. -/
def fxSigmoid (neg : Bool) (x : Nat) : Nat :=
  let e := fxExpNeg x
  min (fxOne - 1) (fxOne * (if neg then e else fxOne) / (fxOne + e))

/-- tanh of a magnitude; it stays below 1. -/
def fxTanh (x : Nat) : Nat :=
  let e := fxExpNeg (2 * x)
  min (fxOne - 1) (fxOne * (fxOne - e) / (fxOne + e))

/-- The normal distribution function at ±x: one half ± x φ(x) Σ x^2n / (2n + 1)!!; from x = 16 on 0, or just below 1,
which is off by less than 2^−180. -/
def fxPhi (neg : Bool) (x : Nat) : Nat :=
  if 16 * fxOne ≤ x then (if neg then 0 else fxOne - 1)
  else
    let x2 := fxMul x x
    let t := (List.range 700).reverse.foldl (fun t n => fxOne + x2 * t / (fxOne * (2 * n + 3))) fxOne
    let g := fxMul (fxMul x t) (fxMul (fxRoot2Pi / 2) (fxExpNeg (x2 / 2)))
    if neg then fxOne / 2 - g else fxOne / 2 + g

/-- √(2/π) (x + 0.044715 x³) of the tanh form of GELU. -/
def fxGeluArg (x : Nat) : Nat := fxMul fxRoot2Pi (x + 44715 * fxMul (fxMul x x) x / 1000000)

/-- The magnitude of FUNC at ±x. -/
def fxFunc (func : Nat) (neg : Bool) (x : Nat) : Nat :=
  match func with
  | 0x3 => fxMul x (fxPhi neg x)
  | 0x4 => fxMul x (fxSigmoid neg (2 * fxGeluArg x))
  | 0x5 => fxMul x (fxSigmoid neg x)
  | 0x6 => fxSigmoid neg x
  | _ => fxTanh x

/-! ## FP32 -/

/-- The FP32 magnitude code at or below a fixed-point value. -/
def f32Floor (y : Nat) : Nat :=
  let l := Nat.log2 y
  if y < 2 ^ 514 then y / 2 ^ 491
  else (l - 513) * 2 ^ 23 + (y / 2 ^ (l - 23) - 2 ^ 23)

/-- How far the result is from the code at or below the exact value: −1 to 2 codes lie within 2 ULP; 1 at most where the
next code begins a binade; −2 too where the value is that code. Which it is, is open (notes/assumptions/16.md). -/
def ulpStep (pick code : Nat) (exact : Bool) : Int :=
  if exact then (pick % 5 : Nat) - 2
  else if (code + 1) % 2 ^ 23 = 0 then (pick % 3 : Nat) - 1
  else (pick % 4 : Nat) - 1

/-- An FP32 pattern within 2 ULP of ±y, none beyond the largest finite magnitude. -/
def f32Near (pick : Nat) (neg : Bool) (y : Nat) (exact : Bool) : Nat :=
  let c := f32Floor y
  let r : Int := c + ulpStep pick c exact
  min 0x7F7FFFFF r.natAbs + (if neg != decide (r < 0) then 2 ^ 31 else 0)

/-- FUNC 0x3 to 0x7 on an FP32 pattern: the same on every Panel (R61). A NaN gives the canonical NaN; GELU and SiLU of −∞ are
no limit of what they multiply, and open. -/
def epilogueSmooth (func x : Nat) : Nat :=
  let pick := Config.epilogueStep func (BitVec.ofNat 32 x)
  match f32Val x with
  | .nan => f32Of .nan
  | .fin neg m e =>
    let y := (m * 2 ^ (640 + e).toNat)
    f32Near pick (neg && func != 0x6) (fxFunc func neg y) (decide (m = 0))
  | .inf neg =>
    if func = 0x6 then f32Near pick false (if neg then 0 else fxOne) true
    else if func = 0x7 then f32Near pick neg fxOne true
    else if neg then (Config.epilogueNegInf func).toNat
    else f32Of (.inf false)

end Sys2Proof.Machine
end

