-- ==== Sys2Proof/Machine/Lanes.lean ====
section
/-! DEFINITION. What the arrays compute: lanes and windows (R71 to R75), promotion into Hem entries (R76, R77, R79), the
EPILOGUE functions (R61), and the words of the matrix A (R123 to R125). -/

namespace Sys2Proof.Machine

/-! ## Floating-point windows (R73 to R75) -/

/-- What a floating-point lane holds after one window: `sum` × 2^(e − 13), or a special value (R74). -/
structure LaneRes where
  sum     : Int
  e       : Int
  special : Option FVal
  sticky  : Bool
  sat     : Bool
deriving DecidableEq, Repr

/-- Floor of log2 of a finite non-zero value. -/
def floorLog : FVal → Option Int
  | .fin _ m e => if m = 0 then none else some (Nat.log2 m + e)
  | _ => none

/-- The largest of `l`; 0 of none. -/
def maxInt : List Int → Int
  | [] => 0
  | x :: xs => xs.foldl max x

/-- One term truncated toward zero to a multiple of 2^(e − 13): the quotient, and whether bits were dropped. -/
def truncTerm (e : Int) : FVal → Int × Bool
  | .fin neg m x =>
    let c := cutAt m x (e - 13)
    (if neg then -(c.1 : Int) else c.1, c.2.1 != 0)
  | _ => (0, false)

def laneMax : Int := 2097151
def laneMin : Int := -2097152

/-- One step of the running sum: a saturated lane ignores the rest. -/
def laneStep (a : Int × Bool) (q : Int) : Int × Bool :=
  if a.2 then a
  else if laneMax < a.1 + q then (laneMax, true)
  else if a.1 + q < laneMin then (laneMin, true)
  else (a.1 + q, false)

/-- One lane over one window, its terms in order. -/
def laneWindow (ts : List FVal) : LaneRes :=
  let pos := ts.any (· == .inf false)
  let neg := ts.any (· == .inf true)
  let special : Option FVal :=
    if ts.any (· == .nan) || (pos && neg) then some .nan
    else if pos then some (.inf false)
    else if neg then some (.inf true)
    else none
  let e := maxInt (ts.filterMap floorLog)
  let qs := ts.map (truncTerm e)
  let r := (qs.map (·.1)).foldl laneStep (0, false)
  ⟨r.1, e, special, qs.any (·.2), r.2⟩

/-! ## Products and limbs (R46, R73, R79) -/

/-- The limb sub-passes of a format, in the order of R79: limb of the activation, limb of the weight
(notes/assumptions/31.md); `none` for formats of one limb. -/
def limbPairs (f : Nat) : List (Option (Nat × Nat)) :=
  if f = fmtFp16 then [some (1, 1), some (1, 0), some (0, 1), some (0, 0)]
  else if f = fmtFp32 then
    [some (2, 2), some (2, 1), some (1, 2), some (2, 0), some (1, 1), some (0, 2), some (1, 0), some (0, 1), some (0, 0)]
  else [none]

/-- The exact product of two values, or of one limb of each mantissa. -/
def limbProd (ij : Option (Nat × Nat)) (a w : FVal) : FVal :=
  match ij, a, w with
  | some (i, j), .fin x m e, .fin y n f => .fin (x != y) (field m (8 * i) 8 * field n (8 * j) 8) (e + f + 8 * (i + j))
  | _, a, w => mulVal a w

/-! ## Pass values (R77) -/

/-- The value of one lane that PROMOTE adds: an integer, a ring or field value, or the promoted FP32 values in order,
each marked when it stands for a NaN or infinite lane. -/
inductive PassVal where
  | int (v : Int)
  | ring (v : Nat)
  | flt (ps : List (Nat × Bool))
deriving DecidableEq, Repr

/-- A pass value with what it adds to the tile's flags. -/
structure LaneOut where
  val    : PassVal
  sat    : Bool
  sticky : Bool
deriving DecidableEq, Repr

/-- The promoted value of a window: lane × 2^(e − 13 + sa + sw) as FP32 (R77); a NaN scale makes the lane NaN (R36). -/
def promoted (r : LaneRes) (sa sw : Option Nat) : Nat × Bool :=
  let sh := fun (x : Option Nat) => match x with
    | some b => (b : Int) - 127
    | none => 0
  if sa = some 0xFF ∨ sw = some 0xFF then (f32Of .nan, true)
  else match r.special with
    | some v => (f32Of v, true)
    | none => (f32Of (dyVal r.sum (r.e - 13 + sh sa + sh sw)), false)

/-- One element row along K, with its block scales where it is block scaled. -/
structure Row where
  codes  : List Nat
  scales : List Nat
  bs     : Bool
deriving DecidableEq, Repr

/-- Blocks of 32 along K when either operand is block scaled, else one block (R60, R73). -/
def kBlocks (a w : Row) (n : Nat) : List (List (Nat × Nat)) :=
  let ps := List.zip a.codes w.codes
  if a.bs ∨ w.bs then groupsOf 32 (n + 1) ps else [ps]

/-- One lane of a pass: activation row `a` in format `fa`, weight row `w` in format `fw`. -/
def laneOut (fa fw : Nat) (a w : Row) : LaneOut :=
  if isInt fa then
    ⟨.int ((List.zipWith (fun x y => signed (fmtBits fa) x * signed (fmtBits fw) y) a.codes w.codes).foldl (· + ·) 0),
      false, false⟩
  else if isRing fa then
    ⟨.ring ((List.zipWith (· * ·) a.codes w.codes).foldl (· + ·) 0 % 2 ^ fmtBits fa), false, false⟩
  else if fa = fmtF61 then ⟨.ring ((List.zipWith (· * ·) a.codes w.codes).foldl (· + ·) 0 % f61P), false, false⟩
  else
    let blocks := kBlocks a w a.codes.length
    let out := (blocks.mapIdx (fun b ts =>
      (limbPairs fa).map (fun ij =>
        let r := laneWindow (ts.map (fun t => limbProd ij (decodeFloat fa t.1) (decodeFloat fw t.2)))
        (promoted r (if a.bs then some (a.scales.getD b 0) else none) (if w.bs then some (w.scales.getD b 0) else none), r)))).flatten
    ⟨.flt (out.map (·.1)), out.any (fun x => x.2.sat), out.any (fun x => x.2.sticky)⟩

/-! ## Hem entries (R76, R77) -/

def int48Max : Int := 2 ^ 47 - 1
def int48Min : Int := -(2 ^ 47)

/-- A compensated pair: hi, lo, and whether hi holds the special value of a NaN or infinite lane (R77). A finite lane whose
promoted value overflows FP32 leaves no such mark: the arithmetic of the step then runs on its infinity. -/
structure Pair where
  hi : Nat
  lo : Nat
  sp : Bool
deriving DecidableEq, Repr

/-- The compensated step of R77. DEDUCED, where a lane is special before the pair begins (notes/assumptions/87.md): the special values of lanes stay in hi, with lo 0: a NaN for the rest of the tile, an
infinity until a NaN or the opposite infinity meets it. -/
def pairStep (e : Pair) (p : Nat × Bool) : Pair :=
  if e.sp then (if p.2 then ⟨f32Add e.hi p.1, 0, true⟩ else e)
  else if p.2 then ⟨p.1, 0, true⟩
  else
    let s := f32Add e.hi p.1
    let bp := f32Sub s e.hi
    let ep := f32Add (f32Sub e.hi (f32Sub s bp)) (f32Sub p.1 bp)
    ⟨s, f32Add e.lo ep, false⟩

/-- The promoted values added to an FP32 pair; `first` starts the entry. -/
def pairAdd (first : Bool) (e : Pair) : List (Nat × Bool) → Pair
  | [] => if first then ⟨0, 0, false⟩ else e
  | p :: ps => ps.foldl pairStep (if first then ⟨p.1, 0, p.2⟩ else pairStep e p)

/-- The pair of an entry code: hi in bits 31 to 0, lo in bits 63 to 32, the mark in bit 64. -/
def pairOf (e : Nat) : Pair := ⟨field e 0 32, field e 32 32, bit e 64⟩

def Pair.code (x : Pair) : Nat := x.hi + x.lo * 2 ^ 32 + b2n x.sp * 2 ^ 64

/-- The promoted values added to a plain FP32 entry. -/
def plainAdd (first : Bool) (e : Nat) : List (Nat × Bool) → Nat
  | [] => if first then 0 else e
  | p :: ps => ps.foldl (fun x q => f32Add x q.1) (if first then p.1 else f32Add e p.1)

/-- One entry after a PROMOTE (R77): `f` the tile's format, `ent` the entry kind. Answers the entry and whether it
saturated. -/
def entryStep (f ent : Nat) (first : Bool) (e : Nat) (v : PassVal) : Nat × Bool :=
  match v with
  | .int x =>
    let t := (if first then 0 else signed 64 e) + x
    if int48Max < t then (wrap 64 int48Max, true) else if t < int48Min then (wrap 64 int48Min, true) else (wrap 64 t, false)
  | .ring x =>
    let m := if f = fmtF61 then f61P else 2 ^ fmtBits f
    (((if first then 0 else e) + x) % m, false)
  | .flt ps =>
    if ent = 1 then (plainAdd first e ps, false)
    else
      ((pairAdd first (pairOf e) ps).code, false)

/-! ## EPILOGUE (R61) -/

/-- The value of an entry that EPILOGUE starts from: rounded once to FP32, or the ring or field value itself. -/
def entryVal (f ent e : Nat) : Val :=
  if isInt f then .int (signed 64 e)
  else if isRing f then .ring (fmtBits f) e
  else if f = fmtF61 then .f61 e
  else if ent = 1 then .flt (f32Val e)
  else .flt (addVal (f32Val (pairOf e).hi) (f32Val (pairOf e).lo))

/-- Step 1: the entry as FP32. -/
def entryF32 (f ent e : Nat) : Nat :=
  match entryVal f ent e with
  | .int v => f32Of (intVal v)
  | .flt v => f32Of v
  | _ => 0

/-- FUNC on an FP32 pattern; 0x3 to 0x7 are within 2 ULP of the exact function (notes/assumptions/16.md). -/
def epilogueFunc (func param x : Nat) : Nat :=
  let v := f32Val x
  let zero : FVal := .fin false 0 0
  match func with
  | 0x0 => x
  | 0x1 => if v = .nan then f32Of .nan else if ltVal zero v then x else 0
  | 0x2 => if ltVal v zero then f32Mul x param else x
  | 0x8 =>
    let hi := f32Val param
    if ltVal hi v then param else if ltVal v (negVal hi) then f32Of (negVal hi) else x
  | _ => epilogueSmooth func x

/-- Steps 2 to 4: scale, bias, function. -/
def epilogueF32 (func scale param : Nat) (bias : Option Nat) (x : Nat) : Nat :=
  let y := f32Mul x scale
  epilogueFunc func param (match bias with
    | some b => f32Add y b
    | none => y)

/-! ## The matrix A (R123 to R125) -/

/-- Word k of a round: `w` bytes of the keystream under the matrix seed. -/
def matrixWord (mseed : Bytes) (w k : Nat) : Nat :=
  let per := 16 / w
  le (aesEncrypt mseed (beBytes 16 (k / per))) (w * (k % per)) w

/-- Element A(r, c); A has no rows at or beyond VECTOR_LEN. -/
def matrixElem (mseed : Bytes) (ring64 : Bool) (vlen lambda r c : Nat) : Nat :=
  if r < vlen then matrixWord mseed (if ring64 then 8 else 4) (r * lambda + c) else 0

end Sys2Proof.Machine
end

