-- ==== Sys2Proof/Machine/TileOps.lean ====
section
/-! DEFINITION. What the tile commands share: the command at the front of a Panel (R57, R64), address words and checked
accesses (R56, R100, R170), scratch pages and the spill area (R52), reads and writes of a program (R64, R65), array faults
(R67 to R69), dealing of a mask expansion (R138, R140). -/

namespace Sys2Proof.Machine

/-! ## Dealing a mask expansion -/

/-- The online Panels of a partition, ascending. -/
def State.onlinePanels (s : State) (p : Nat) : List Nat := (s.cfg p).panels.filter (fun n => (s.panel n).health != 3)

/-- Blocks dealt to one Panel of `q` online ones, the `i`-th: block number k of the list goes to the (k mod 64q)-th array. -/
def sweepsOf (r ahead q i : Nat) (blocks : List Nat) : List Sweep :=
  (groupsOf (64 * q) (blocks.length + 1) blocks).filterMap (fun g =>
    let mine := (g.drop (64 * i)).take 64
    if mine.isEmpty then none else some ⟨r, mine.mapIdx (fun j b => (j, b)), ahead⟩)

/-- Round `r` holds the Loom, or stalled while it held it: the words and the register name its expansion (R144). -/
def Loom.holds (x : Loom) (r : Nat) : Bool := x.round == r && (x.busy || x.stalled)

/-- The expansion of round `r` stalls: reported once (R140). One that has streamed no word reads as the current expansion
with no word streamed (R144). -/
def State.loomStall (s : State) (r : Nat) : State :=
  let x := s.round r
  if x.stalled then s
  else
    let s1 := s.setRound r { x with stalled := true }
    let s2 := if s1.loom.busy ∧ s1.loom.round ≠ r then s1
      else { s1 with
        loom := { s1.loom with stalled := true, round := r, busy := false, words := if s1.loom.holds r then s1.loom.words else 0 } }
    s2.raise srcLoom evLoomStalled (r / 2) (leBytes 1 r)

/-- An expansion of round `r` has sweeps to stream. -/
def State.hasSweeps (s : State) (r : Nat) : Bool :=
  s.panels.any (fun (e : Nat × Panel) => e.2.sweeps.any (fun (w : Sweep) => w.round == r))

/-- Round `a` goes before round `b`: the earlier SEAL, then the lower round ID, which orders partitions and slots (R14). -/
def State.sealBefore (s : State) (a b : Nat) : Bool :=
  let x := (s.round a).pol.tSeal
  let y := (s.round b).pol.tSeal
  decide (x < y) || (x == y && decide (a < b))

/-- Round `r` holds the Loom, or it is free and no round that goes before it waits for it (R14). -/
def State.loomTurn (s : State) (r : Nat) : Bool :=
  if s.loom.busy then s.loom.round == r
  else (List.range 64).all (fun k => k == r || !s.hasSweeps k || s.sealBefore r k)

/-- Round `r` streams `n` matrix words; the first ones take the Loom. The words that the Loom makes again for a pass that is
re-run are not counted again (notes/assumptions/69.md). -/
def State.loomStream (s : State) (r n : Nat) : State :=
  if s.loom.holds r then { s with loom := { s.loom with words := s.loom.words + n, busy := true, stalled := false } }
  else { s with loom := ⟨r, true, false, n, s.loom.failed⟩ }

/-- The expansion's last PROMOTE frees the Loom, and S leaves the seed path (R14, R110, R143). -/
def State.expandEnd (s : State) (r : Nat) : State :=
  if s.hasSweeps r ∨ !(s.round r).blocks.isEmpty then s
  else
    let s1 := s.setRound r { s.round r with seed := [] }
    if s1.loom.round = r then { s1 with loom := { s1.loom with busy := false } } else s1

/-- A sweep queued on a Panel stays before one of round `r`: its round holds the Loom, or does not go behind `r` (R14). -/
def State.sweepStays (s : State) (r : Nat) (w : Sweep) : Bool :=
  (s.loom.busy && s.loom.round == w.round) || !s.sealBefore r w.round

/-- New sweeps of round `r` on a Panel, in the order of R14. A sweep that they go before and that has loaded S but streamed no
word starts again. -/
def State.queueSweeps (s : State) (r : Nat) (new : List Sweep) (x : Panel) : Panel :=
  let stay := x.sweeps.takeWhile (s.sweepStays r)
  let y := { x with sweeps := stay ++ new ++ x.sweeps.drop stay.length }
  if stay.isEmpty ∧ !x.sweeps.isEmpty ∧ x.run.isNone ∧ x.pc ≠ 0 then { y with pc := 0, set0 := actInit, set1 := actInit, inflight := [] } else y

/-- Row blocks of round `r` dealt over the partition's online Panels; with none online they wait, and the Loom stalls
(R140). Blocks dealt again keep the expansion's place before later tile operations (R15). -/
def State.deal (s : State) (r : Nat) (blocks : List Nat) : State :=
  let on := s.onlinePanels (r / 2)
  if blocks.isEmpty then s
  else if on.isEmpty then
    let x := s.round r
    (s.setRound r { x with blocks := x.blocks ++ blocks }).loomStall r
  else
    (on.zip (List.range on.length)).foldl (fun s e =>
      s.setPanel e.1 (s.queueSweeps r (sweepsOf r (s.round r).ahead on.length e.2 blocks) (s.panel e.1))) s

/-- A Panel goes offline: the blocks whose adds were not dispatched are dealt again (R140). -/
def State.reDeal (s : State) (n : Nat) : State :=
  let x := s.panel n
  let rounds := (x.sweeps.map (·.round)).eraseDups
  let busy := x.run.isNone && !x.sweeps.isEmpty
  let y := if busy then
      { x with sweeps := [], pc := 0, set0 := actInit, set1 := actInit, streams := [], passes := [], pass := none, tiles := [], inflight := [] }
    else { x with sweeps := [] }
  rounds.foldl (fun s r =>
    s.deal r (x.sweeps.flatMap (fun (w : Sweep) => if w.round = r then w.blocks.map (·.2) else []))) (s.setPanel n y)

/-! ## Array faults (R67 to R69) -/

/-- A LASTING pass check of a logical array: spare, orphan, then offline. An orphan that ran on array 64 runs there no
more, so REMAPPED names no array (R68, R70). -/
def State.arrayLost (s : State) (n p array : Nat) : State :=
  let x := s.panel n
  match x.health with
  | 0 => (s.setPanel n { x with health := 1, remapped := array }).raise (srcPanel n) evPnlRemap p (leBytes 1 n ++ leBytes 1 array)
  | 1 => (s.setPanel n { x with
        health := 2, orphan := array, remapped := if x.remapped = array then 0x7F else x.remapped }).raise (srcPanel n) evPnlDegraded p (leBytes 1 n ++ leBytes 1 array)
  | _ => (s.setPanel n { x with health := 3 }).reDeal n

/-! ## The command at the front (R57) -/

/-- The command words of one sweep of an expansion (R138): λ/64 chunks of LOAD_ACT, STREAM_W, PASS, PROMOTE. -/
def expansionWords (lambda f : Nat) : List DWord :=
  (List.range (lambda / 64)).flatMap (fun c =>
    let a := c % 2
    [0x1 * 2 ^ 60 + a * 2 ^ 54 + 1 * 2 ^ 52 + 63 * 2 ^ 46 + 64 * 2 ^ 34 + f, 0,
      0x2 * 2 ^ 60 + 1 * 2 ^ 53 + 2 ^ 52 + 64 * 2 ^ 42 + 3 * 2 ^ 32 + f, 0,
      0x3 * 2 ^ 60 + a * 2 ^ 54,
      0x4 * 2 ^ 60 + (if c = 0 then 2 ^ 54 else 0) + 3 * 2 ^ 50].map (BitVec.ofNat 64))

def Policy.ringFmt (p : Policy) : Nat := if p.ring64 then fmtRing64 else fmtRing32

/-- A dispatched TILE_RUN that names Panel `n` and that an expansion with mark `ahead` runs behind (R15). -/
def State.runWaits (s : State) (n ahead : Nat) : Bool :=
  s.ops.any (fun e => e.2.opcode == 0x10 && e.2.phase == .ready && decide (e.1 < ahead) && bit (le e.2.bytes 24 8) n
    && s.panelPart n == some (e.2.fn - 1))

/-- The words from the next command of Panel `n` on; true for a program that the module issued itself. None while the
Panel stalls, waits at a barrier or has nothing to run. -/
def State.tileWords (s : State) (n : Nat) : Option (Bool × List DWord) :=
  let x := s.panel n
  if !s.isRun ∨ x.stall.isSome ∨ x.ended ∨ x.atBarrier then none
  else match x.run with
    | some _ => some (false, x.prog.drop x.pc)
    | none =>
      match x.sweeps with
      | [] => none
      | w :: _ =>
        if s.runWaits n w.ahead ∨ !s.expandTok w.round then none
        else
          let pol := (s.round w.round).pol
          some (true, (expansionWords pol.lambda pol.ringFmt).drop x.pc)

/-- Words of a command by its word 0. -/
def cmdWords (w : Nat) : Nat :=
  match field w 60 4 with
  | 1 => if bit w 7 then 3 else 2
  | 2 => if bit w 7 then 3 else 2
  | 5 => if bit w 50 then 3 else 2
  | 6 => 2
  | 7 => 3
  | _ => 1

/-- Reserved bits of word 0 (R57). -/
def reservedBits (w : Nat) : Nat :=
  match field w 60 4 with
  | 1 => field w 8 21
  | 2 => field w 34 8 + field w 8 24
  | 3 => field w 0 54
  | 4 => field w 0 50
  | 5 => field w 8 42
  | 6 => field w 0 55
  | 7 => field w 0 55
  | 8 => field w 48 1 + field w 0 32
  | _ => 0

/-- Panel `n` stops at its current command. -/
def State.tileStop (s : State) (n status : Nat) : State := (s.stopPanel n status (s.panel n).pc).settle n

/-- `f` on the next command of Panel `n` when its opcode is `opc`, with the partition, whether the module issued it, and its
words as numbers; a reserved opcode, a reserved bit or a missing word stops the Panel (R65). -/
def issueTile (opc n : Nat) (s : State) (f : Nat → Bool → List Nat → State) : State :=
  match s.tileWords n, s.panelPart n with
  | some (own, w :: ws), some p =>
    let o := field w.toNat 60 4
    if o = 0 ∨ 9 ≤ o then s.tileStop n stTileOpcode
    else if o ≠ opc then s
    else if ws.length + 1 < cmdWords w.toNat ∨ reservedBits w.toNat ≠ 0 then s.tileStop n stTileOpcode
    else f p own (((w :: ws).take (cmdWords w.toNat)).map (·.toNat))
  | _, _ => s

/-- The command is issued: the Panel goes on to the next one, and ends behind the last. -/
def State.advance (s : State) (n words : Nat) (pass : Option Nat) : State :=
  let x := s.panel n
  let y := { x with pc := x.pc + words, pass := pass, touched := [] }
  (s.setPanel n (if x.run.isSome ∧ x.prog.length ≤ y.pc then { y with ended := true } else y)).settle n

/-! ## Accesses (R56) -/

/-- An address word with its base register added. -/
def Panel.addr (x : Panel) (v : Nat) : AddrWord :=
  let a := addrOf v
  { a with addr := if a.base = 0 then a.addr else a.addr + x.bases.getD (a.base - 1) 0 }

/-- `count` rows of `len` bytes from an address word. -/
def rowsOf (a : AddrWord) (count len : Nat) : List (Nat × Nat) :=
  (List.range count).map (fun i => (a.addr + i * a.ldim * 16, len))

def PartCfg.scratchBytes (c : PartCfg) : Nat := c.scratch * 2 ^ 20

/-- The status of an access: range, then locks (R56, R100, R170). -/
def State.accStatus (s : State) (p : Nat) (a : AddrWord) (rows : List (Nat × Nat)) (write : Bool) : Nat :=
  if a.space = 0 then
    if rows.any (fun r => decide ((s.cfg p).scratchBytes < r.1 + r.2)) then stTileSpace else stOk
  else if rows.any (fun r => !s.inUnits p a.tier r.1 r.2) then stTileSpace
  else if rows.any (fun r => if write then s.aggLocked p a.tier r.1 r.2 else s.aggLockedRead p a.tier r.1 r.2) then stAggLocked
  else if rows.any (fun r => s.gruLocked p a.tier r.1 r.2) then stGruLocked
  else stOk

/-! ## Scratch space (R51, R52) -/

def pageBytes : Nat := 65536

/-- The scratch pages that rows touch. -/
def pagesOf (a : AddrWord) (rows : List (Nat × Nat)) : List Nat :=
  if a.space = 0 then
    (rows.flatMap (fun r => if r.2 = 0 then [] else
      (List.range ((r.1 + r.2 - 1) / pageBytes - r.1 / pageBytes + 1)).map (r.1 / pageBytes + ·))).eraseDups
  else []

/-- The scratch space spills: more than the 22 MiB of the data pages. -/
def State.spills (s : State) (p : Nat) : Bool := decide (22 < (s.cfg p).scratch)

/-- The partition address in tier A of byte `a` of the scratch space of Panel `n`. -/
def State.spillAddr (s : State) (p n a : Nat) : Nat :=
  let c := s.cfg p
  c.tierA.length * unitSize 0 - c.spillBytes + (c.panels.findIdx (· == n)) * c.scratchBytes + a

def Panel.resident (x : Panel) (pg : Nat) : Bool := x.pages.any (fun (e : StorePage) => e.page == pg)

/-- The first page that must be fetched before the command can run. -/
def State.missing (s : State) (p n : Nat) (pages : List Nat) : Option Nat :=
  if s.spills p then
    pages.find? (fun pg => !(s.panel n).resident pg && !(s.panel n).touched.contains pg)
  else none

/-- One byte of scratch: in the store, or in the spill area when its page is not resident. -/
def State.scratchByte (s : State) (p n a : Nat) : Byte :=
  if !s.spills p ∨ (s.panel n).resident (a / pageBytes) then rdByte (s.panel n).store a
  else s.ptByte p 0 (s.spillAddr p n a)

/-- One byte of scratch written. -/
def State.putScratch (s : State) (p n a : Nat) (b : Byte) : State :=
  if !s.spills p ∨ (s.panel n).resident (a / pageBytes) then
    let x := s.panel n
    s.setPanel n { x with store := wrByte a b x.store }
  else s.putByte p 0 (s.spillAddr p n a) b

def State.putScratchBytes (p n : Nat) : Nat → Bytes → State → State
  | _, [], s => s
  | a, b :: bs, s => State.putScratchBytes p n (a + 1) bs (s.putScratch p n a b)

/-- Pages used now become the most recently used ones, dirty where they are written. -/
def State.usePages (s : State) (p n : Nat) (pages : List Nat) (write : Bool) : State :=
  if s.spills p then
    let x := s.panel n
    let used := x.pages.filter (fun (e : StorePage) => pages.contains e.page)
    let rest := x.pages.filter (fun (e : StorePage) => !pages.contains e.page)
    s.setPanel n { x with pages := rest ++ used.map (fun (e : StorePage) => { e with dirty := e.dirty || write }) }
  else s

/-! ## Reads and writes of a program -/

/-- The replaced blocks that one command reads with their old contents, oldest first: for each block that a STORE replaced
without a SYNC behind it, an open choice that holds for the whole command (R64). -/
def State.staleBlocks : List (Nat × Nat × Bytes) → State → List (Nat × Nat × Bytes) × State
  | [], s => ([], s)
  | b :: rest, s =>
    let c := s.freeBool
    let r := State.staleBlocks rest c.2
    (if c.1 then r.1 ++ [b] else r.1, r.2)

/-- Bytes at `lo` of a space, with the chosen old blocks over them. -/
def overlay (old : List (Nat × Nat × Bytes)) (space lo : Nat) (bs : Bytes) : Bytes :=
  if old.isEmpty then bs
  else bs.mapIdx (fun i b =>
    match old.find? (fun e => e.1 == space && e.2.1 == (lo + i) / 64) with
    | some e => e.2.2.getD ((lo + i) % 64) 0
    | none => b)

/-- `len` bytes at `lo` of the space that `a` names, read by Panel `n` with the old blocks `old`, and the statuses met. -/
def State.tileRead (s : State) (p n : Nat) (a : AddrWord) (old : List (Nat × Nat × Bytes)) (r : Nat × Nat) :
    State × Bytes × List Nat :=
  if a.space = 0 then (s, overlay old 0 r.1 ((List.range r.2).map (fun i => s.scratchByte p n (r.1 + i))), [])
  else
    let m := s.memRead p a.tier r.1 r.2
    (m.1, overlay old a.space r.1 m.2.data, if m.2.status = stOk then [] else [m.2.status])

/-- Rows read in order. -/
def State.tileRows (p n : Nat) (a : AddrWord) (old : List (Nat × Nat × Bytes)) :
    List (Nat × Nat) → State → State × List Bytes × List Nat
  | [], s => (s, [], [])
  | r :: rs, s =>
    let x := s.tileRead p n a old r
    let y := State.tileRows p n a old rs x.1
    (y.1, x.2.1 :: y.2.1, x.2.2 ++ y.2.2)

/-- A byte of a space as it stands. -/
def State.plainByte (s : State) (p n : Nat) (a : AddrWord) (i : Nat) : Byte :=
  if a.space = 0 then s.scratchByte p n i else s.ptByte p a.tier i

/-- The 64-byte blocks that a command's writes replace, each once, with their contents before the command. -/
def State.oldBlocks (s : State) (p n : Nat) (a : AddrWord) (l : List (Nat × Bytes)) : List (Nat × Nat × Bytes) :=
  ((l.flatMap (fun e => linesOf e.1 e.2.length)).eraseDups).map (fun b =>
    (a.space, b, (List.range 64).map (fun i => s.plainByte p n a (b * 64 + i))))

/-- Rows written in order; statuses met are appended. -/
def State.writeRows (p n : Nat) (a : AddrWord) : List (Nat × Bytes) → State × List Nat → State × List Nat
  | [], acc => acc
  | (lo, bs) :: rest, acc =>
    if a.space = 0 then State.writeRows p n a rest (State.putScratchBytes p n lo bs acc.1, acc.2)
    else
      let w := acc.1.memWrite p a.tier lo bs
      State.writeRows p n a rest (w.1, if w.2.status = stOk then acc.2 else acc.2 ++ [w.2.status])

/-- The rows of a STORE written; the blocks that they replace are remembered until a SYNC (R64). -/
def State.tileWrite (p n : Nat) (a : AddrWord) (l : List (Nat × Bytes)) (acc : State × List Nat) : State × List Nat :=
  let x := acc.1.panel n
  State.writeRows p n a l (acc.1.setPanel n { x with unsynced := acc.1.oldBlocks p n a l ++ x.unsynced }, acc.2)

/-- The Panel notes the statuses of a command and stops at the first that is no TRANSIENT one. -/
def State.tileStatuses (s : State) (n word : Nat) (l : List Nat) : State := l.foldl (fun s st => s.tileStatus n st word) s

/-- A status among those met stops the Panel. -/
def stops (l : List Nat) : Bool := l.any (fun st => st != stOk && !isTransient st)

/-- Elements of rows, F61 ones reduced and counted. -/
def State.codeRows (p f klen : Nat) : List Bytes → State → List (List Nat) × State
  | [], s => ([], s)
  | r :: rs, s =>
    let c := s.readCodes p f ((List.range klen).map (elemAt f r))
    let d := State.codeRows p f klen rs c.2
    (c.1 :: d.1, d.2)

/-- An in-flight command of class `opc` (R63, R64). -/
def Panel.flies (x : Panel) (opc : Nat) : Bool := x.inflight.any (fun (i : InFlight) => i.opc == opc)

end Sys2Proof.Machine
end

