-- ==== Sys2Proof/Machine/AggOps.lean ====
section
/-! DEFINITION. What the rounds keep in tier B: the client table and presence map (R99, R101), the alive tables (R150,
R151), the bitmaps of R109 and R119; and the policy block (R97). -/

namespace Sys2Proof.Machine

/-! ## Client table, presence map, alive table -/

abbrev clientAbsent : Nat := 0
abbrev clientAdmitted : Nat := 1
abbrev clientWithdrawn : Nat := 2

/-- A client table entry (R101). -/
structure Client where
  st   : Nat
  segs : Nat
  fold : Nat
deriving DecidableEq, Repr

def clientOf (v : Nat) : Client := ⟨field v 62 2, field v 45 17, field v 0 32⟩

def Client.word (c : Client) : Nat := c.st * 2 ^ 62 + c.segs * 2 ^ 45 + c.fold

/-- The entry of client `i`, as its line holds it. -/
def State.client (s : State) (r i : Nat) : Client :=
  clientOf (leNat (s.ptBytes (r / 2) 1 ((s.round r).mapBase + 8 * i) 8))

/-- The engine's write of bytes of its tables: a partial write of their lines (R197, R201). -/
def State.putTable (s : State) (r a : Nat) (bs : Bytes) : State := (s.memWrite (r / 2) 1 a bs).1

def State.setClient (s : State) (r i : Nat) (c : Client) : State :=
  s.putTable r ((s.round r).mapBase + 8 * i) (leBytes 8 c.word)

/-- The byte of the presence map that holds bit `k`. -/
def Round.presByte (x : Round) (k : Nat) : Nat := x.mapBase + x.pol.tableBytes + k / 8

def State.present (s : State) (r k : Nat) : Bool := bit (s.ptByte (r / 2) 1 ((s.round r).presByte k)).toNat (k % 8)

def State.setPresent (s : State) (r k : Nat) (v : Bool) : State :=
  let a := (s.round r).presByte k
  let b := (s.ptByte (r / 2) 1 a).toNat
  let m := 2 ^ (k % 8)
  s.putTable r a [BitVec.ofNat 8 (if v then b ||| m else if bit b (k % 8) then b - m else b)]

/-- Where the alive table of round `r` lies in the partition's tier B. -/
def State.aliveBase (s : State) (r : Nat) : Nat :=
  (s.cfg (r / 2)).tierB.length * unitSize 1 - aliveBytes + (r % 2) * (aliveBytes / 2)

def State.alive (s : State) (r i : Nat) : Nat := leNat (s.ptBytes (r / 2) 1 (s.aliveBase r + 2 * i) 2)

def State.setAlive (s : State) (r i v : Nat) : State := s.putTable r (s.aliveBase r + 2 * i) (leBytes 2 v)

/-- The engine reads the table entry, the presence bit `k` and the alive entry of client `i` of round `r`; true where each of
their lines could be read (R199 to R201). -/
def State.readEntries (s : State) (r i k : Nat) : State × Bool :=
  let p := r / 2
  let x := s.memRead p 1 ((s.round r).mapBase + 8 * i) 8
  let y := x.1.memRead p 1 ((s.round r).presByte k) 1
  let z := y.1.memRead p 1 (s.aliveBase r + 2 * i) 2
  (z.1, x.2.good && y.2.good && z.2.good)

/-- The engine reads the whole client table of round `r`. -/
def State.readTable (s : State) (r : Nat) : State × ReadRes :=
  s.memRead (r / 2) 1 (s.round r).mapBase (s.round r).pol.tableBytes

/-- ALIVE passes the window of R149. -/
def aliveOk (alive last : Nat) : Bool :=
  let d := (alive + 65536 - last % 65536) % 65536
  decide (1 ≤ d) && decide (d ≤ 32767)

/-! ## Bitmaps -/

/-- A bitmap of the clients that `f` names: bit i mod 8 of byte i / 8 (R109). -/
def State.clientMap (s : State) (r : Nat) (f : Client → Bool) : Bytes :=
  let n := (s.round r).pol.slots
  (List.range (ceilDiv n 8)).map (fun b =>
    BitVec.ofNat 8 (((List.range 8).map (fun k =>
      let i := 8 * b + k
      if i < n ∧ f (s.client r i) then 2 ^ k else 0)).sum))

/-- The admitted bitmap. -/
def State.admittedMap (s : State) (r : Nat) : Bytes := s.clientMap r (fun c => c.st == clientAdmitted)

/-- The incomplete-client bitmap (R106, R119). -/
def State.incompleteMap (s : State) (r : Nat) : Bytes :=
  s.clientMap r (fun c => c.st == clientAdmitted && c.segs != (s.round r).pol.nseg)

/-! ## The policy block -/

/-- The policy of a block, when every time has its form. -/
def policyOf (b : Bytes) : Option Policy :=
  match timeAt b 32, timeAt b 42, timeAt b 52, timeAt b 62 with
  | some ta, some tc, some ts, some tr =>
    some ⟨le b 0 4, byteAt b 4 == 0x0D, byteAt b 5, byteAt b 6, byteAt b 7, le b 8 2, le b 12 4, le b 16 4, le b 20 4,
      le b 24 4, ta, tc, ts, tr, slice b 80 48⟩
  | _, _, _, _ => none

/-- The ranges of R97. -/
def policyRanges (b : Bytes) (p : Policy) : Bool :=
  (byteAt b 4 == 0x0C || byteAt b 4 == 0x0D) && decide (p.errB ≤ 8) && decide (2 ≤ p.committee) && decide (2 ≤ p.threshold)
    && decide (p.threshold ≤ p.committee) && decide (512 ≤ p.lambda) && decide (p.lambda ≤ 2048) && p.lambda % 64 == 0
    && zeroAt b 10 2 && decide (1 ≤ p.slots) && decide (p.slots ≤ 16777216) && decide (2 ≤ p.minCohort)
    && decide (p.minCohort ≤ p.slots) && decide (1 ≤ p.vlen) && decide (p.vlen ≤ 2 ^ 30) && zeroAt b 28 4 && zeroAt b 72 8

/-- The mark conditions of R98 for a round accepted at `t`, but for ADMIT_CLOSE being too early. -/
def policyMarks (p : Policy) (t : Nat) : Bool :=
  decide (p.tAdmit ≤ p.tComplete) && decide (p.tComplete ≤ p.tSeal) && decide (p.tSeal + nsPerSec ≤ p.tRelease)
    && decide (p.tRelease ≤ t + 604800 * nsPerSec)

end Sys2Proof.Machine
end

