-- ==== Sys2Proof/Machine/Rounds.lean ====
section
/-! DEFINITION. Aggregation rounds (spec/05_aggregation_rounds.md): the round descriptors, the four marks, the seal drain,
READY. -/

namespace Sys2Proof.Machine

/-- The round that a round descriptor names (R117). -/
def Op.round (o : Op) : Nat := 2 * (o.fn - 1) + byteAt o.bytes 8 % 2

/-! ## ROUND_OPEN (R97 to R99, R118) -/

/-- The accumulator or the map area overlaps one of the partition's other round. -/
def State.roundHits (s : State) (r : Nat) (x : Round) : Bool :=
  let y := s.round (r / 2 * 2 + (1 - r % 2))
  y.st != .idle && (y.hitsAcc 0 x.accBase x.pol.accBytes || y.hitsMap 1 x.mapBase x.pol.mapBytes)

/-- The rows of R118 that need no policy. -/
def State.openStatus (s : State) (r : Nat) (d : Bytes) : Nat :=
  let a := addrAt d 24
  let m := addrAt d 32
  if (s.round r).st ≠ .idle then stAggSlotBusy
  else if !s.sec.tenantOpen ∨ s.sec.lifecycle ≠ 1 then stAggNoSession
  else if a.space ≠ 1 ∨ !a.plain ∨ a.addr % 65536 ≠ 0 ∨ m.space ≠ 2 ∨ !m.plain ∨ m.addr % 4096 ≠ 0 then stAggAddress
  else stOk

/-- The rest of the rows of R118, and the areas that another rule locks (R170). -/
def State.policyStatus (s : State) (r t : Nat) (x : Round) (policy : Bytes) : Nat :=
  let p := r / 2
  let y := s.round (p * 2 + (1 - r % 2))
  if !policyRanges policy x.pol ∨ !policyMarks x.pol t then stAggPolicy
  else if x.pol.tAdmit < t + 10 * msNs then stAggMarkPast
  else if y.st ≠ .idle ∧ y.pol.tag = x.pol.tag then stAggTagBusy
  else if !s.inUnits p 0 x.accBase x.pol.accBytes ∨ !s.inUnits p 1 x.mapBase x.pol.mapBytes ∨ s.roundHits r x then
    stAggSpace
  else if s.freeMarks < 4 then stAggMarks
  else if s.gruLocked p 0 x.accBase x.pol.accBytes ∨ s.gruLocked p 1 x.mapBase x.pol.mapBytes then stGruLocked
  else stOk

/-- The round accepted: CREATED, with its seed, its key pair and its four marks. -/
def State.acceptRound (s : State) (r : Nat) (x : Round) : State :=
  let p := r / 2
  let g := s.drbgBytes p 32
  let k := g.2.condBytes 48
  let priv := ecScalar k.1
  let s1 := k.2.setSlot (104 + r) ⟨true, beBytes 48 priv, 1, 1, false, true, false, p, 2 ^ engShc, 0⟩
  let s2 := (s1.setRound r { x with st := .created, mseed := g.1, pub := ecPublic priv }).roundEvent r .created 0
  [(1, x.pol.tAdmit), (2, x.pol.tComplete), (3, x.pol.tSeal), (4, x.pol.tRelease)].foldl
    (fun s e => s.addMark (plainMark e.2 e.1 p (r % 2) 0)) s2

/-- ROUND_OPEN: `policy` is the block that the module reads from host memory. Its DETAIL names the round ID (R259). -/
def execRoundOpen (op : Nat) (policy : Bytes) (s : State) : Res :=
  .next (onReady 0x30 op s (fun o =>
    let r := o.round
    let d := o.bytes
    let st := s.openStatus r d
    let refuse := fun (st : Nat) => s.finish op st (leBytes 1 r)
    if st ≠ stOk then refuse st
    else if !s.reachable o.fn then refuse stHifHostUnreachable
    else
      let b := slice policy 0 128
      match policyOf b with
      | none => refuse stAggPolicy
      | some pol =>
        let x : Round := { roundInit with
          openOp := some op, policy := b, pol := pol, accBase := (addrAt d 24).addr, mapBase := (addrAt d 32).addr }
        let st2 := s.policyStatus r o.aux x b
        if st2 ≠ stOk then refuse st2 else (s.acceptRound r x).running op o))

/-- The accumulator, the map area and the alive table read zero: OPEN (R102, R117, R150, R151). -/
def execRoundZeroingDone (p slot : Nat) (s : State) : Res :=
  .next (let r := 2 * p + slot
    let x := s.round r
    if slot < 2 ∧ x.st = .created then
      let s1 := ((s.zeroRange p 0 x.accBase x.pol.accBytes).zeroRange p 1 x.mapBase x.pol.mapBytes).zeroRange p 1
        (s.aliveBase r) (aliveBytes / 2)
      let s2 := (s1.setRound r { x with openOp := none, wasOpen := true }).enterRound r .opened
      match x.openOp with
      | some op => s2.finish op stOk (leBytes 1 r)
      | none => s2
    else s)

/-! ## ROUND_ABORT, ROUND_STATUS, ROUND_FREE (R114 to R119) -/

/-- ROUND_ABORT: too late from the RELEASE mark's time on. -/
def execRoundAbort (op : Nat) (s : State) : Res :=
  .next (onReady 0x31 op s (fun o =>
    let r := o.round
    let x := s.round r
    if x.st = .idle then s.finish op stAggState
    else if !x.st.running ∨ x.pol.tRelease ≤ o.aux then s.finish op stAggTooLate
    else (s.abortRound r causeHostAbort).finish op stOk))

/-- The status block of R119. -/
def Round.statusBlock (x : Round) : Bytes :=
  leBytes 1 x.st.code ++ leBytes 1 x.cause ++ leBytes 1 x.accepted ++ zeros 1 ++ leBytes 4 x.cohort ++ leBytes 4 x.incomplete
    ++ zeros 4 ++ slice x.digest 0 48

/-- LIST is one of R119 in a state of its own. -/
def listOk (list : Nat) (st : RState) : Bool :=
  list == 0 || (list == 1 && decide (4 ≤ st.code) && decide (st.code ≤ 5))
    || (list == 2 && decide (5 ≤ st.code) && decide (st.code ≤ 8))

/-- ROUND_STATUS. A client table that cannot be read for a list ends it with the status of that read and nothing is written; the
round aborts (R112, R200, notes/assumptions/74.md). -/
def execRoundStatus (op : Nat) (s : State) : Res :=
  .next (onReady 0x32 op s (fun o =>
    let r := o.round
    let x := s.round r
    let list := byteAt o.bytes 9
    if x.st = .idle ∨ !listOk list x.st then s.finish op stAggState
    else if !s.reachable o.fn then s.finish op stHifHostUnreachable
    else
      let t := if list = 0 then (s, readInit) else s.readTable r
      if t.2.good then
        let map := if list = 0 then [] else if list = 1 then t.1.incompleteMap r else t.1.admittedMap r
        (t.1.put (.hostWrite o.fn (le o.bytes 16 8) (x.statusBlock ++ map))).finish op t.2.status
      else (t.1.abortRound r causeShardFault).finish op t.2.status))

/-- ROUND_FREE accepted: the slot is freeing until the scrub is verified. -/
def execRoundFree (op : Nat) (s : State) : Res :=
  .next (onReady 0x33 op s (fun o =>
    let r := o.round
    let x := s.round r
    if (x.st ≠ .released ∧ x.st ≠ .aborted) ∨ x.freeing then s.finish op stAggState
    else (s.setRound r { x with freeing := true, freeOp := some op }).running op o))

/-- Both areas are scrubbed and verified: the slot is IDLE, its marks go with it (R102, R117, R310). -/
def execRoundFreeScrubDone (p slot : Nat) (s : State) : Res :=
  .next (let r := 2 * p + slot
    let x := s.round r
    if slot < 2 ∧ x.freeing then
      let s1 := (s.blankRange p 0 x.accBase x.pol.accBytes).blankRange p 1 x.mapBase x.pol.mapBytes
      let s2 := ((s1.dropRoundMarks p slot).setRound r roundInit).roundEvent r .idle 0
      match x.freeOp with
      | some op => s2.finish op stOk
      | none => s2
    else s)

/-! ## The marks (R102, R106, R108, R113) -/

/-- ADMIT_CLOSE of round `r`. -/
def State.admitClose (s : State) (r : Nat) : State :=
  match (s.round r).st with
  | .created => s.abortRound r causeOpenLate
  | .opened => s.enterRound r .closed
  | _ => s

/-- COMPLETE of round `r`. -/
def State.completeRound (s : State) (r : Nat) : State :=
  let x := s.round r
  if x.st = .closed then
    (s.enterRound r .completing).raise (srcEngine (r / 2)) evAggIncomplete (r / 2) (leBytes 1 r ++ leBytes 4 x.incomplete)
  else s

/-- SEAL of round `r`: the drain begins. -/
def State.sealRound (s : State) (r : Nat) : State :=
  let x := s.round r
  if x.st = .completing then s.setRound r { x with draining := true } else s

/-- A record whose first frame came before `t` waits in partition `p`'s ingest queue or is still being placed in it. -/
def State.ingestBefore (s : State) (p t : Nat) : Bool :=
  (s.ing p).queue.any (fun (x : PlacedRec) => decide (x.stamp < t))
    || s.fab.rx.any (fun (e : Nat × RxEntry) =>
      e.2.part == p && e.2.typ == pxtSend && e.2.queue == 0 && e.2.st == .opened && decide (e.2.stamp < t))

/-- Adds of records of partition `p` that no Seam unit has committed. -/
def State.recordAdds (s : State) (p : Nat) : Bool :=
  s.xfers.any (fun (e : Nat × Xfer) => e.2.src == .record (2 * p) || e.2.src == .record (2 * p + 1))

/-- The end of the drain: the tests of R109, or the digest and SEALED. -/
def execSealDrainEnd (p slot : Nat) (s : State) : Res :=
  .next (let r := 2 * p + slot
    let x := s.round r
    if slot < 2 ∧ x.draining ∧ x.st = .completing ∧ !s.ingestBefore p x.pol.tSeal ∧ !s.recordAdds p then
      if x.cohort < x.pol.minCohort then s.abortRound r causeCohortSmall
      else if x.incomplete ≠ 0 then s.abortRound r causeIncompleteClient
      else if !(s.readTable r).2.good then (s.readTable r).1.abortRound r causeShardFault
      else
        let t := (s.readTable r).1
        let s1 := t.setRound r { x with draining := false, digest := sha384 (t.admittedMap r), collOpen := true, thrAt := none }
        (s1.enterRound r .sealed).raise (srcEngine p) evAggSealed p (leBytes 1 r)
    else s)

/-- The round becomes RELEASED: its public key and key slot are destroyed, staged share-sums complete (R113, R134). -/
def State.releaseRound (s : State) (r : Nat) : State :=
  let s1 := s.endSecrets r
  let s2 := s1.setRound r { s1.round r with pub := zeros 97, collOpen := false, wants := false, thrAt := none }
  ((s2.enterRound r .released).raise (srcEngine (r / 2)) evAggReleased (r / 2) (leBytes 1 r)).dropStaged r

/-- RELEASE of round `r`: the decision of R113. The Graticule has held it until the round's drain had ended and a ROUND_ABORT
accepted earlier had run (`State.heldMark`). -/
def State.decideRelease (s : State) (r : Nat) : State :=
  let x := s.round r
  match x.st with
  | .ready => if x.cohort < x.pol.minCohort then s.abortRound r causeCohortSmall else s.releaseRound r
  | .sealed => s.abortRound r causeSharesShort
  | .unmasking => s.abortRound r causeUnmaskLate
  | _ => s

/-! ## READY (R110 to R112) -/

/-- The expansion of round `r` is committed whole: no sweep left, no block undealt, no add on its way. -/
def State.expanded (s : State) (r : Nat) : Bool :=
  (s.round r).blocks.isEmpty && !s.panels.any (fun (e : Nat × Panel) => e.2.sweeps.any (fun (w : Sweep) => w.round == r))
    && !s.xfers.any (fun (e : Nat × Xfer) => e.2.dst == .acc r)

/-- The noise of round `r`: one draw for each element, from the partition's DRBG, added as Seam adds. What the draws took of
the DRBG is open (notes/assumptions/17.md). -/
def State.noise (s : State) (r : Nat) : State :=
  let x := s.round r
  let c := s.takeFree
  let adds := (List.range x.pol.vlen).map (fun i => (i, (⟨wrap (8 * x.pol.elem) (Config.gaussian c.1 i), 0, 0⟩ : Addend)))
  let f := c.2.freeBytes 51
  let p := r / 2
  let s1 := match (f.2.part p).drbg with
    | some _ => f.2.setPart p { f.2.part p with drbg := some ⟨f.1.take 32, beNat ((f.1.drop 32).take 16), leNat (f.1.drop 48) % (drbgLimit + 1)⟩ }
    | none => f.2
  s1.newXfer (.noise r) (.acc r) adds

/-- Every shard is confirmed: after the expansion the noise is drawn; after the noise, or with SIGMA 0, the round is READY.
The adds can be confirmed in RUN alone: a hold-up drops those that no Seam unit has committed (R240). -/
def execRoundShardsConfirmed (p slot : Nat) (s : State) : Res :=
  .next (let r := 2 * p + slot
    let x := s.round r
    if slot < 2 ∧ x.st = .unmasking ∧ s.expanded r ∧ s.isRun then
      if x.unmask = .expanding ∧ x.pol.sigma ≠ 0 then (s.setRound r { x with unmask := .noise }).noise r
      else (s.setRound r { x with unmask := .done }).enterRound r .ready
    else s)

end Sys2Proof.Machine
end

