-- ==== Sys2Proof/Machine/Ingest.lean ====
section
/-! DEFINITION. The record check unit and the Ring Sum Engine's decision of a record (spec/07_ingest_path.md, R104 to
R107), flush and unlatch. -/

namespace Sys2Proof.Machine

/-! ## A record (R145, R146) -/

def recordHeader : Nat := 32

/-- The fields of a record's header. -/
structure RecHdr where
  version : Nat
  retract : Bool
  wide    : Bool
  alive   : Nat
  client  : Nat
  segment : Nat
  tag     : Nat
  crc     : Nat
  zeros   : Bool
deriving DecidableEq, Repr

def recHdrOf (b : Bytes) : RecHdr :=
  { version := byteAt b 0, retract := bit (byteAt b 1) 0, wide := bit (byteAt b 1) 1, alive := le b 2 2, client := le b 4 3
    segment := le b 8 2, tag := le b 12 4, crc := le b 28 4
    zeros := field (byteAt b 1) 2 6 == 0 && byteAt b 7 == 0 && le b 10 2 == 0 && zeroAt b 16 12 }

/-- The check unit reads a placed record from its buffers; a line that cannot be read gives zeros
(notes/assumptions/74.md). -/
def State.recordOf (s : State) (p : Nat) (x : PlacedRec) : State × Bytes :=
  match s.rxq p 0 with
  | none => (s, zeros x.len)
  | some q =>
    let r := ((List.range x.bufs.length).zip x.bufs).foldl (fun (acc : State × ReadRes) e =>
      let y := acc.1.memRead p q.tier (q.base + e.2 * q.size) (min q.size (x.len - e.1 * q.size))
      (y.1, acc.2.join y.2)) (s, readInit)
    (r.1, r.2.data)

/-- The segment check of R101. -/
def segmentCheck (segment : Nat) (payload : Bytes) : Nat := crc32c (leBytes 4 segment ++ payload)

/-- A non-zero element beyond VECTOR_LEN (check 9). -/
def paddingBad (pol : Policy) (segment : Nat) (payload : Bytes) : Bool :=
  let live := min 16384 (pol.vlen - 16384 * segment)
  segment + 1 == pol.nseg && !zeroAt payload (live * pol.elem) (payload.length - live * pol.elem)

/-! ## Rejections (R162, R164) -/

/-- A rejection under R148: counted, latched while no latch is held, flagged. -/
def State.rejectRec (s : State) (p cnt flag status : Nat) (hdr : Bytes) : State :=
  let s1 := s.countPart p cnt
  let g := s1.ing p
  let s2 := if bit g.ien.toNat flag && !bit g.first3.toNat 0 then
      s1.setIng p { g with
        first0 := BitVec.ofNat 32 (le hdr 0 4), first1 := BitVec.ofNat 32 (le hdr 4 4)
        first2 := BitVec.ofNat 32 (le hdr 8 4), first3 := BitVec.ofNat 32 (status * 65536 + 1) }
    else s1
  s2.setIngFlag p flag

/-! ## The Ring Sum Engine (R104) -/

/-- The addends of a segment: added, or subtracted for a retract. -/
def segmentAdds (pol : Policy) (segment : Nat) (neg : Bool) (payload : Bytes) : List (Nat × Addend) :=
  let b := 8 * pol.elem
  (piecesOf pol.elem payload).mapIdx (fun t x =>
    (16384 * segment + t, ⟨(if neg then (2 ^ b - leNat x) % 2 ^ b else leNat x : Nat), 0, 0⟩))

/-- The decision of R104 on a checked record; the counter of R164 that it moves, and the new state. -/
def State.decideRec (s : State) (r : Nat) (h : RecHdr) (stamp : Nat) (payload : Bytes) : Nat × State :=
  let x := s.round r
  let n := x.pol.nseg
  let c := s.client r h.client
  let k := h.client * n + h.segment
  let chk := segmentCheck h.segment payload
  let add := fun (s : State) => s.newXfer (.record r) (.acc r) (segmentAdds x.pol h.segment h.retract payload)
  if x.st.code < 2 ∨ 4 < x.st.code then (cntIngNotOpen, s)
  else if x.pol.tSeal ≤ stamp then (cntIngLate, s)
  else if !h.retract then
    if c.st = clientWithdrawn then (cntIngWithdrawn, s)
    else if c.st = clientAbsent ∧ x.pol.tAdmit ≤ stamp then (cntIngNotAdmitted, s)
    else
      let new := decide (c.st = clientAbsent)
      let segs := c.segs + 1
      let inc0 := x.incomplete + b2n (new && decide (1 < n))
      let inc := if segs = n ∧ 1 < n then inc0 - 1 else inc0
      let s1 := (s.setRound r { x with cohort := x.cohort + b2n new, incomplete := inc }).setPresent r k true
      (cntIngAccepted, add (s1.setClient r h.client ⟨clientAdmitted, segs, c.fold ^^^ chk⟩))
  else if c.st ≠ clientAdmitted ∨ !s.present r k then (cntIngRetractAbsent, s)
  else
    let segs := c.segs - 1
    let fold := c.fold ^^^ chk
    let inc0 := x.incomplete + b2n (decide (c.segs = n) && decide (1 < n))
    let gone := decide (segs = 0)
    let inc := if gone ∧ 1 < n then inc0 - 1 else inc0
    let s1 := (s.setRound r { x with cohort := x.cohort - b2n gone, incomplete := inc }).setPresent r k false
    let s2 := add (s1.setClient r h.client ⟨if gone then clientWithdrawn else clientAdmitted, segs, fold⟩)
    (cntIngRetracted, if gone ∧ fold ≠ 0 then s2.abortRound r causeRetractMismatch else s2)

/-! ## The checks (R148) -/

/-- The round of partition `p` that a tag names. -/
def State.taggedRound (s : State) (p tag : Nat) : Option Nat :=
  [2 * p, 2 * p + 1].find? (fun r => (s.round r).st != .idle && (s.round r).pol.tag == tag)

/-- Checks 10 and 11 and the decision: the alive entry is written, and restored for a record not admitted (R150). An entry
whose line cannot be read aborts the round, and the record is decided after that (R112, R164, notes/assumptions/74.md). -/
def State.aliveRec (s0 : State) (p r : Nat) (h : RecHdr) (stamp : Nat) (b : Bytes) : State :=
  let m := s0.readEntries r h.client (h.client * (s0.round r).pol.nseg + h.segment)
  let s := m.1
  let last := s.alive r h.client
  if !m.2 then (s.abortRound r causeShardFault).countPart p cntIngNotOpen else
  if !aliveOk h.alive last then s.rejectRec p cntIngAlive ingAlive stIngAlive b
  else
    let s1 := s.setAlive r h.client h.alive
    if !h.retract ∧ s1.present r (h.client * (s.round r).pol.nseg + h.segment) then
      s1.rejectRec p cntIngDuplicate ingDuplicate stIngDuplicate b
    else
      let d := s1.decideRec r h stamp (b.drop recordHeader)
      let s2 := if d.1 = cntIngNotAdmitted then d.2.setAlive r h.client last else d.2
      s2.countPart p d.1

/-- The checks of a record in order. -/
def State.checkRec (s : State) (p stamp : Nat) (b : Bytes) : State :=
  let h := recHdrOf b
  if b.length ≠ recordBytes false ∧ b.length ≠ recordBytes true then s.rejectRec p cntIngLength ingFormat stIngLength b
  else if h.crc ≠ crc32c (b.take 28 ++ b.drop recordHeader) then s.rejectRec p cntIngCrc ingCrc stIngCrc b
  else if h.version ≠ 1 ∨ !h.zeros then s.rejectRec p cntIngFormat ingFormat stIngFormat b
  else match s.taggedRound p h.tag with
    | none => s.rejectRec p cntIngTag ingTag stIngTag b
    | some r =>
      let x := s.round r
      if x.st.code < 2 ∨ 4 < x.st.code then s.countPart p cntIngNotOpen
      else if h.wide ≠ x.pol.ring64 ∨ b.length ≠ recordBytes h.wide then s.rejectRec p cntIngRing ingRing stIngRing b
      else if x.pol.slots ≤ h.client then s.rejectRec p cntIngClient ingClient stIngClient b
      else if x.pol.nseg ≤ h.segment then s.rejectRec p cntIngSegment ingSegment stIngSegment b
      else if paddingBad x.pol h.segment (b.drop recordHeader) then s.rejectRec p cntIngPadding ingPadding stIngPadding b
      else s.aliveRec p r h stamp b

/-! ## Discarding (R160, R161) -/

/-- Every undecided record goes and its buffers return; records being placed are dropped with `mark` when they are whole. -/
def State.discardQueue (s : State) (p cnt mark : Nat) : State :=
  let g := s.ing p
  let n := g.queue.length
  let s1 := g.queue.foldl (fun s (x : PlacedRec) => s.giveBack p 0 x.bufs) (s.setIng p { g with queue := [] })
  let s2 := { s1 with
    fab := { s1.fab with
      rx := s1.fab.rx.map (fun (e : Nat × RxEntry) =>
        if e.2.part = p ∧ e.2.typ = pxtSend ∧ e.2.queue = 0 ∧ e.2.st = RxState.opened ∧ e.2.drop = 0 then
          (e.1, { e.2 with drop := mark })
        else e) } }
  (s2.countSome p cnt n).settleQueue p 0

/-- FLUSHING (R160): a record that the flush met is still being placed. -/
def State.flushing (s : State) (p : Nat) : Bool :=
  s.fab.rx.any (fun (e : Nat × RxEntry) => e.2.part == p && e.2.typ == pxtSend && e.2.queue == 0 && e.2.st == .opened
    && e.2.drop == 1)

/-- A write of 1 to ING_CTL.FLUSH. -/
def execIngCtlFlush (p : Nat) (s : State) : Res :=
  .next (if s.isRun ∧ (s.rxq p 0).isSome then s.discardQueue p cntIngFlushed 1 else s)

/-- A write of 1 to ING_CTL.UNLATCH. -/
def execIngCtlUnlatch (p : Nat) (s : State) : Res :=
  .next (if s.isRun then
      let g := s.ing p
      s.setIng p { g with first3 := g.first3 &&& 0xFFFFFFFE }
    else s)

/-- The reset of the queue (R161). EV_ING_QUEUE_RESET names the records of the queue; those still being placed are dropped and
counted when their last frame arrives (notes/assumptions/75.md). -/
def State.queueReset (s : State) (p : Nat) : State :=
  let n := (s.ing p).queue.length
  let s1 := (s.discardQueue p cntIngQresetDrop 2).setIngFlag p ingQreset
  s1.raise (srcCheck p) evIngQueueReset p (leBytes 1 p ++ leBytes 4 n)

/-! ## INGEST_RECORD_CHECK -/

/-- The record at the front is decided; its buffers return. -/
def State.serveRec (s : State) (p : Nat) : State :=
  match (s.ing p).queue with
  | [] => s
  | x :: xs =>
    let b := s.recordOf p x
    let s1 := (b.1.setIng p { b.1.ing p with queue := xs }).checkRec p x.stamp b.2
    (s1.giveBack p 0 x.bufs).settleQueue p 0

/-- The check unit takes the next placed record. A LASTING fault of the engine or the unit aborts the partition's rounds
first, and the record is then decided (R112, R164). -/
def execIngestRecordCheck (p : Nat) (err : IngErr) (s : State) : Res :=
  .next (if !s.isRun then s
    else match (s.ing p).queue with
      | [] => s
      | _ :: _ =>
        match err with
        | .none => s.serveRec p
        | .pointerTransient => (s.countError (some p) cntTransient).serveRec p
        | .pointerLasting => (s.countError (some p) cntLasting).queueReset p
        | .engineTransient => (s.countError (some p) cntTransient).serveRec p
        | .engineLasting => ((s.countError (some p) cntLasting).engineFault p).serveRec p)

end Sys2Proof.Machine
end

