-- ==== Sys2Proof/Machine/FabTarget.lean ====
section
/-! DEFINITION. The target side of the Plynuc Transport (R280 to R295): messages arriving in posted buffers, through windows
and Seam windows, read requests, flushes, acknowledgements, the ends of receive entries. -/

namespace Sys2Proof.Machine

/-! ## The duplicate filter (R283) -/

/-- Step 4 of R280: `new` opens a message, `more` takes a packet of an open one. -/
def State.judged (s : State) (k : Packet) (new : State → State) (more : Nat → RxEntry → State) : State :=
  let p := k.hdr.dstPart.toNat
  match s.rxFind k with
  | none => new s
  | some (i, e) =>
    let g := k.hdr.gen.toNat
    if g = e.gen then
      if e.st = .abandoned then s.countPart p cntFabStale
      else if e.st = .complete ∨ e.got.contains k.hdr.pktIndex.toNat then (s.countPart p cntFabDup).ackOne k
      else if e.len ≠ k.hdr.msgLen.toNat ∨ e.queue ≠ k.hdr.queue.toNat then s.countMod cntFabFormat
      else more i e
    else if seqAfter 8 g e.gen then
      let s1 := if e.st = .opened then s.endRx i e .abandoned else s
      new (((s1.dropRx i).settleWindow e.part e.window).settleQueue e.part e.queue)
    else s.countPart p cntFabStaleGen

/-- A receive entry for a new message, when one is free; else NACK BUSY. -/
def State.enter (s : State) (k : Packet) (f : State → Nat → RxEntry → State) : State :=
  if rxLimit ≤ (s.fab.rx.filter (fun (e : Nat × RxEntry) => !e.2.gone)).length then s.nack k nackBusy
  else
    let i := s.fab.nextRx
    let e := rxNew s.now k
    f ({ s with fab := { s.fab with rx := tset i e s.fab.rx, nextRx := i + 1 } }) i e

/-- The message is refused: its entry ABANDONED, a NACK. -/
def State.refuse (s : State) (k : Packet) (i : Nat) (e : RxEntry) (code : Nat) : State :=
  (s.endRx i e .abandoned).nack k code

/-- The entry with this packet taken: received, and to acknowledge with its TX_TIME. -/
def RxEntry.take (e : RxEntry) (k : Packet) (now : Nat) : RxEntry :=
  let i := k.hdr.pktIndex.toNat
  { e with got := e.got ++ [i], ack := e.ack ++ [(i, k.hdr.txTime.toNat)], port := k.port, last := now }

/-! ## Placement of bytes -/

/-- Lines under `[a, a + n)` that are poisoned: after a write there, those that did not take their bytes (R201). -/
def State.badLines (s : State) (p tier a n : Nat) : List Nat :=
  (linesOf a n).filter (fun ln => s.poisoned tier (s.phys p tier (ln * 64)))

/-- Bytes from message offset `first` of entry `i` placed at `a`; what cannot be placed is a placement failure (R294). -/
def State.placeBytes (s : State) (i p tier a first : Nat) (bs : Bytes) : State :=
  let w := s.memWrite p tier a bs
  if s.lockStatus p tier a bs.length ≠ stOk then s.placeFail i first bs.length nackAccess
  else if w.2.nokey then s.placeFail i first bs.length nackAccess
  else
    (w.1.badLines p tier a bs.length).foldl (fun s ln =>
      let lo := max a (ln * 64)
      let hi := min (a + bs.length) (ln * 64 + 64)
      s.placeFail i (first + (lo - a)) (hi - lo) nackAccess) w.1

/-! ## SEND (R285 to R287) -/

/-- The chain array entries of a message's buffers. -/
def State.writeChain (s : State) (p : Nat) (q : RxQueue) : List Nat → State
  | [] => s
  | b :: bs =>
    let nxt := bs.headD 0xFFFFFFFF
    State.writeChain (s.memWrite p q.tier (q.chain + 4 * b) (leBytes 4 nxt)).1 p q bs

/-- The producer of the ingest queue advances: a mismatch of its pointer copies is cleared by the retry, or resets the queue
(R161). -/
def State.advanceQueue (s : State) (p : Nat) (err : Option ErrClass) : State :=
  match err with
  | some .transient => s.countError (some p) cntTransient
  | some .lasting => (s.countError (some p) cntLasting).queueReset p
  | _ => s

/-- Every byte is placed: a record joins the ingest queue or is dropped whole (R160, R161); another message is announced. -/
def State.sendDone (s : State) (i : Nat) (e : RxEntry) (q : RxQueue) (err : Option ErrClass) : State :=
  let p := e.part
  let bufs := (List.range (ceilDiv e.len q.size)).map (fun k => tget 0 e.bufs k)
  if e.drop ≠ 0 then
    ((s.giveBack p e.queue bufs).endRx i e .complete).countPart p (if e.drop = 1 then cntIngFlushed else cntIngQresetDrop)
  else
    let s1 := (s.writeChain p q bufs).endRx i e .complete
    let s2 := if e.queue = 0 then
        let g := s1.ing p
        (s1.setIng p { g with queue := g.queue ++ [⟨e.stamp, bufs, e.len⟩] }).advanceQueue p err
      else s1.arrival p e.queue stOk (bufs.headD 0) e.len
    s2.bump p q.counter

/-- The free list ran dry inside an open message: dropped whole. -/
def State.sendDrop (s : State) (k : Packet) (i : Nat) (e : RxEntry) : State :=
  let p := e.part
  let s1 := s.refuse k i e nackNoBuffer
  if e.queue = 0 then (s1.countPart p cntIngOverrun).setIngFlag p ingOverrun
  else (s1.countPart p cntFabTruncated).arrival p e.queue stFabTruncated 0 0

/-- A packet of an open SEND. -/
def State.sendPlace (k : Packet) (plain : Bytes) (err : Option ErrClass) (s : State) (i : Nat) (e : RxEntry) : State :=
  match s.rxq e.part e.queue with
  | none => s.refuse k i e nackNoQueue
  | some q =>
    let at0 := pktBytes * k.hdr.pktIndex.toNat
    let kth := at0 / q.size
    let got := match tfind e.bufs kth with
      | some b => some (b, s)
      | none => s.takeBuffer e.part e.queue
    match got with
    | none => (s.sendDrop k i e).settleQueue e.part e.queue
    | some (b, s1) =>
      let e1 := { e.take k s.now with bufs := tset kth b e.bufs }
      let s2 := (s1.setRx i e1).placeBytes i e.part q.tier (q.base + b * q.size + at0 % q.size) at0 plain
      if e1.whole then (s2.sendDone i e1 q err).settleQueue e.part e.queue else s2

/-- The opening packet of a SEND. -/
def State.sendOpen (k : Packet) (plain : Bytes) (err : Option ErrClass) (s : State) : State :=
  s.enter k (fun s i e =>
    match s.rxq e.part e.queue with
    | none => s.refuse k i e nackNoQueue
    | some q =>
      if 63 < e.queue ∨ q.delOp.isSome ∨ q.count * q.size < e.len then s.refuse k i e nackNoQueue
      else if e.queue = 0 ∧ s.ingFull e.part then (s.refuse k i e nackNoBuffer).countPart e.part cntIngFullNack
      else if e.queue ≠ 0 ∧ q.free.length < ceilDiv e.len q.size then s.refuse k i e nackNoBuffer
      else State.sendPlace k plain err s i e)

/-- A SEND packet; `err` is what the comparison of the ingest queue's pointers finds if the producer advances (R161). -/
def execPxtSendReceive (pkt : Packet) (err : Option ErrClass) (s : State) : Res :=
  .next (s.opened pxtSend pkt (fun _ plain => s.judged pkt (State.sendOpen pkt plain err) (State.sendPlace pkt plain err s)))

/-! ## Window checks (R288 to R290) -/

/-- The addend format of a Seam window: with FORM 0 the element format of its region's kind. -/
def seamWindowFmt (kind : Nat) : Nat := kindFmt kind

/-- The region of a Seam window, and its addend size. A region whose kind does not accept the window's FORM is none of the
window's (R84, notes/assumptions/79.md). -/
def State.windowRegion (s : State) (p : Nat) (w : Window) : Option (Region × Nat) :=
  match s.region p w.region with
  | none => none
  | some r => if formOk r.kind w.form (seamWindowFmt r.kind) then some (r, formBytes r.kind w.form (seamWindowFmt r.kind)) else none

/-- The definition of a region that an addend belongs to (R89). -/
def regionDst (p region : Nat) (r : Region) : XferDst := .region p region r.defNo r.tier r.base r.kind

/-- The message was admitted under another definition of its region (R89). -/
def RxEntry.redefined (e : RxEntry) (d : XferDst) : Bool :=
  match e.dst with
  | some x => x != d
  | none => false

/-- The failed condition of R290 for bytes `[first, first + n)` of the message of entry `e`; 0 where none fails. `perm` is the
PERM bit that the packet needs; PERM bit 2 permits WRITE itself (R288). A message of which packets have been taken is
admitted. Its region is closed to it also when the ID has come to name another definition (R89). -/
def State.windowFault (s : State) (k : Packet) (e : RxEntry) (perm first n : Nat) : Nat :=
  let h := k.hdr
  let p := h.dstPart.toNat
  let off := h.aux.toNat
  match s.window p (field h.window.toNat 0 11) with
  | none => 1
  | some w =>
    let known := match s.peer p w.peer with
      | some x => x.addr == k.src && x.part == h.srcPart.toNat && x.job == h.job.toNat
      | none => false
    if !w.live ∧ e.got.isEmpty then 1
    else if w.wgen ≠ field h.window.toNat 16 16 then 2
    else if w.peer ≠ 0xFFFF ∧ !known then 3
    else if !bit w.perm perm && !(perm == 1 && bit w.perm 2) then 4
    else if w.len < off + first + n then 5
    else if !bit w.perm 2 then
      let a := w.base + off + first
      if s.lockStatus p w.tier a n ≠ stOk ∨ (perm = 0 ∧ s.sealedHit p w.tier a n) then 7 else 0
    else match s.windowRegion p w with
      | none => 8
      | some (r, u) =>
        if e.redefined (regionDst p w.region r) then 8
        else if off % u ≠ 0 ∨ h.msgLen.toNat % u ≠ 0 then 6
        else if r.elems * u < off + first + n then 5
        else if s.lockStatus p r.tier r.base r.bytes ≠ stOk then 7
        else if r.phase ≠ .opened then 8
        else 0

/-- A packet fails R290: NACK, event, count; the message is ABANDONED. -/
def State.violate (s : State) (k : Packet) (i : Nat) (e : RxEntry) (code first n : Nat) : State :=
  let s1 := (s.refuse k i e (if code = 8 then nackSeamClosed else nackAccess)).countPart e.part cntFabAccess
  (s1.raise (srcPort k.port) evFabAccessViolation e.part
    (leBytes 2 (s.endpointIdx e.part e.src e.srcPart) ++ leBytes 2 e.window ++ leBytes 4 first ++ leBytes 4 n
      ++ leBytes 1 code)).settleWindow e.part e.window

/-! ## WRITE (R289, R290) -/

/-- Byte `j` of a message whose packets `data` holds. -/
def dataByte (data : Tbl Bytes) (j : Nat) : Byte := (tget [] data (j / pktBytes)).getD (j % pktBytes) 0

/-- The addends that the packet with bytes `[first, first + n)` completes, each as its number in the message. -/
def completed (data : Tbl Bytes) (u first n : Nat) : List Nat :=
  ((List.range ((first + n - 1) / u + 1 - first / u)).map (first / u + ·)).filter (fun a =>
    (List.range ((a * u + u - 1) / pktBytes + 1 - a * u / pktBytes)).all (fun j =>
      (tfind data (a * u / pktBytes + j)).isSome))

/-- The message is accepted whole: its entry is COMPLETE (R283). -/
def State.acceptWhole (s : State) (i : Nat) (e : RxEntry) : State := if e.whole then s.endRx i e .complete else s

/-- The region and addend size of a Seam window message as it was admitted, or as its opening packet finds them. -/
def State.lateDst (s : State) (e : RxEntry) : Option (XferDst × Nat) :=
  match e.dst, s.window e.part e.window with
  | some d, _ => some (d, e.unit)
  | none, some w => if bit w.perm 2 then (s.windowRegion e.part w).map (fun (x : Region × Nat) => (regionDst e.part w.region x.1, x.2))
    else none
  | none, none => none

/-- The addends that a packet brings to a closed region, or to an ID whose definition they do not belong to, are discarded
(R89, R91, notes/assumptions/79.md). -/
def State.lateWrite (s : State) (k : Packet) (plain : Bytes) (i : Nat) (e : RxEntry) (fault : Nat) : State :=
  match s.lateDst e with
  | some (.region p region _ tier base kind, u) =>
    match completed (tset k.hdr.pktIndex.toNat plain e.data) u (pktBytes * k.hdr.pktIndex.toNat) plain.length with
    | [] => s
    | a :: more =>
      if fault ≠ 8 then s
      else
        let m := (s.countSome p cntSeamLateAdd (more.length + 1)).lateMsg i
        if m.1 then m.2.lateEvent p region tier (base + (e.off / u + a) * kindBytes kind) else m.2
  | _ => s

/-- A packet of an open WRITE. -/
def State.writePlace (s : State) (k : Packet) (plain : Bytes) (i : Nat) (e : RxEntry) : State :=
  let first := pktBytes * k.hdr.pktIndex.toNat
  let n := plain.length
  let fault := s.windowFault k e 1 first n
  if fault ≠ 0 then (s.lateWrite k plain i e fault).violate k i e fault first n
  else match s.window e.part e.window with
    | none => s
    | some w =>
      let e1 := e.take k s.now
      if !bit w.perm 2 then
        let s1 := ((s.setRx i e1).placeBytes i e.part w.tier (w.base + e.off + first) first plain).acceptWhole i e1
        if e1.whole then s1.writeDone i else s1
      else match s.windowRegion e.part w with
        | none => s
        | some (r, u) =>
          let d := regionDst e.part w.region r
          let e2 := { e1 with data := tset k.hdr.pktIndex.toNat plain e.data, unit := u, dst := some d }
          let f := seamWindowFmt r.kind
          let adds := (completed e2.data u first n).map (fun a =>
            (a, (List.range u).map (fun b => dataByte e2.data (a * u + b))))
          let s1 := ((s.setRx i e2).countF61 e.part r.kind (adds.flatMap (·.2))).acceptWhole i e2
          if adds.isEmpty then s1
          else s1.newXfer (.pxt i) d
            (adds.map (fun (a : Nat × Bytes) => (e.off / u + a.1, addendOf r.kind w.form f a.2)))

/-- A WRITE packet. -/
def execPxtWriteReceive (pkt : Packet) (s : State) : Res :=
  .next (s.opened pxtWrite pkt (fun _ plain => s.judged pkt
    (fun s => s.enter pkt (fun s i e => s.writePlace pkt plain i e)) (s.writePlace pkt plain)))

/-! ## READ_REQ (R290, R292) -/

/-- A READ_REQ: the bytes are read, and a response is set out under the initiator's MSG_ID. -/
def State.readOpen (k : Packet) (s : State) : State :=
  s.enter k (fun s i e =>
    let fault := s.windowFault k e 0 0 e.len
    if fault ≠ 0 then s.violate k i e fault 0 e.len
    else match s.window e.part e.window with
      | none => s
      | some w =>
        let a := w.base + e.off
        let r := s.memRead e.part w.tier a e.len
        if !r.2.good then r.1.refuse k i e nackAccess
        else
          let m := plainMsg .readResp e.part e.src e.srcPart e.job e.msgId e.gen e.len s.now
          let s1 := r.1
          let s2 := { s1 with
            fab := { s1.fab with
              msgs := tset s1.fab.nextMsg
                { m with
                  window := e.window, tier := w.tier, src := a, unsent := List.range (packetCount e.len)
                  echo := k.hdr.txTime.toNat } s1.fab.msgs
              nextMsg := s1.fab.nextMsg + 1 } }
          s2.endRx i (e.take k s.now) .complete)

/-- A READ_REQ packet; a repeat of one already taken is a duplicate. -/
def execPxtReadReqReceive (pkt : Packet) (errs : List LineErr) (s0 : State) : Res :=
  .next (let s := s0.arise errs
    s.opened pxtReadReq pkt (fun _ _ => s.judged pkt (State.readOpen pkt) (fun _ _ => s)))

/-! ## FLUSH (R295) -/

/-- Transfers of addends of an endpoint's writes under a job that are not decided. -/
def State.pendingFrom (s : State) (e : RxEntry) : List Nat :=
  (s.xfers.filter (fun (x : Nat × Xfer) => match x.2.src with
    | .pxt n => (match tfind s.fab.rx n with
      | some y => y.src == e.src && y.srcPart == e.srcPart && y.job == e.job && y.part == e.part
      | none => false)
    | _ => false)).map (·.1)

/-- A FLUSH packet. -/
def execPxtFlushReceive (pkt : Packet) (s : State) : Res :=
  .next (s.opened pxtFlush pkt (fun _ _ => s.judged pkt
    (fun s => s.enter pkt (fun s i e =>
      let w : FlushWait := ⟨e.src, e.srcPart, e.job, e.part, e.msgId, e.gen, s.pendingFrom e, pkt.port⟩
      { s with fab := { s.fab with flushes := tset s.fab.nextFl w s.fab.flushes, nextFl := s.fab.nextFl + 1 } }.endRx i
        (e.take pkt s.now) .complete))
    (fun _ _ => s)))

/-- The port that an answer leaves on: the one that the message came on while it is up, else the first that is. -/
def State.outPort (s : State) (pref : Nat) : Option Nat :=
  if (tget portInit s.fab.ports pref).up then some pref
  else (List.range 8).find? (fun k => (tget portInit s.fab.ports k).up)

/-- What a FLUSH waited for is placed or has failed: FLUSH_RESP with the failure count, which is cleared. -/
def execPxtFlushRespSend (flush : Nat) (s : State) : Res :=
  .next (match tfind s.fab.flushes flush with
    | none => s
    | some w =>
      match s.outPort w.port with
      | none => s
      | some port =>
        if w.before.any (fun x => (tfind s.xfers x).isSome) then s
        else
          let n := s.failCount w.part w.src w.srcPart
          let s1 := s.sendPacket w.part w.job w.src w.srcPart port
            ⟨pxtFlushResp, false, w.gen, 0, w.msgId, 0, 0, stampOf s.now, 0, n, 0⟩ []
          let s2 := s1.setFailCount w.part w.src w.srcPart 0
          { s2 with fab := { s2.fab with flushes := tdel flush s2.fab.flushes } }.settleJob w.job)

/-! ## Acknowledgements (R281) -/

/-- Ascending packet indices as ACKs: first packet and map of up to 64. -/
def ackGroups : Nat → List Nat → List (Nat × Nat)
  | 0, _ => []
  | _, [] => []
  | fuel + 1, x :: xs =>
    let mine := (x :: xs).filter (fun y => decide (y < x + 64))
    (x, (mine.map (fun y => 2 ^ (y - x))).sum) :: ackGroups fuel (xs.filter (fun y => decide (x + 64 ≤ y)))

/-- The TX_TIME that an ACK echoes: of the newest packet that it answers (R278). -/
def RxEntry.echo (e : RxEntry) (g : Nat × Nat) : Nat :=
  match (e.ack.filter (fun x => decide (g.1 ≤ x.1) && bit g.2 (x.1 - g.1))).getLast? with
  | some x => x.2
  | none => 0

/-- The packets of a message that wait for it are acknowledged. -/
def execPxtAckTimer (entry : Nat) (s : State) : Res :=
  .next (match tfind s.fab.rx entry with
    | none => s
    | some e =>
      match s.outPort e.port with
      | none => s
      | some port =>
        let l := sortAsc (e.ack.map (·.1))
        (ackGroups l.length l.eraseDups).foldl (fun s (g : Nat × Nat) =>
          s.sendPacket e.part e.job e.src e.srcPart port
            ⟨pxtAck, false, e.gen, 0, e.msgId, g.1, e.len, e.echo g, 0, 0, g.2⟩ [])
          (s.setRx entry { e with ack := [] }))

/-! ## Late failures and ends of entries -/

/-- The memory access of accepted bytes ended LASTING (R294). -/
def execPlacementFailure (entry first len : Nat) (s : State) : Res :=
  .next (match tfind s.fab.rx entry with
    | none => s
    | some e =>
      if (e.typ = pxtSend ∨ e.typ = pxtWrite) ∧ e.st ≠ .abandoned ∧ !e.gone ∧ 0 < len ∧ first + len ≤ e.len then
        (s.countError (some e.part) cntLasting).placeFail entry first len nackAccess
      else s)

/-- 4 ms after its end, an entry is freed (R283). -/
def execReceiveEntryExpiry (entry : Nat) (s : State) : Res :=
  .next (match tfind s.fab.rx entry with
    | none => s
    | some e =>
      if e.st = .opened ∨ e.gone then s else (s.atLeast e.expire).dropRx entry)

/-- An admitted message of a window that has had no packet for TIMEOUT_MS is abandoned (R291). -/
def execWindowIdleTimeout (entry : Nat) (s : State) : Res :=
  .next (match tfind s.fab.rx entry with
    | none => s
    | some e =>
      if e.typ = pxtWrite ∧ e.st = .opened ∧ !e.whole then
        let s1 := s.atLeast (e.last + s.fab.timeout * msNs)
        (s1.endRx entry e .abandoned).settleWindow e.part e.window
      else s)

end Sys2Proof.Machine
end

