-- ==== Sys2Proof/Machine/FabInit.lean ====
section
/-! DEFINITION. The initiator side of the Plynuc Transport (R281 to R284, R293 to R296, R302): transmission under
congestion control, acknowledgements, refusals, responses, timeouts, ports. -/

namespace Sys2Proof.Machine

/-! ## Congestion contexts (R296) -/

def ctxWays : Nat := 4

def cwndStart : Nat := 262144
def cwndMin : Nat := 4096
def cwndMax : Nat := 8388608

/-- No sample yet. -/
def baseNone : Nat := 2 ^ 64 - 1

/-- The ways of the set of a key. -/
def ctxSet (a : BitVec 128) (part : Nat) : List Nat :=
  (List.range ctxWays).map ((Config.ccSet a.toNat part).toNat * ctxWays + ·)

/-- The context of a key: its own, or the least recently used of its set with nothing in flight, started afresh; none where
every one has bytes in flight. The smoothed round trip of a fresh one is open. -/
def State.ctxFor (s : State) (a : BitVec 128) (part : Nat) : Option (Nat × State) :=
  let ways := ctxSet a part
  match ways.find? (fun c => match tfind s.fab.ctxs c with
      | some x => x.addr == a && x.part == part
      | none => false) with
  | some c => some (c, s)
  | none =>
    let idle := ways.filter (fun c => match tfind s.fab.ctxs c with
      | some x => x.flight == 0
      | none => true)
    let age : Nat → Nat := fun c => match tfind s.fab.ctxs c with
      | some x => x.used + 1
      | none => 0
    match idle with
    | [] => none
    | c0 :: rest =>
      let c := rest.foldl (fun b c => if age c < age b then c else b) c0
      let f := s.freeBytes 4
      some (c, { f.2 with
        fab := { f.2.fab with ctxs := tset c ⟨a, part, baseNone, leNat f.1, cwndStart, 0, 0, 0⟩ f.2.fab.ctxs } })

/-- The round trip of an echoed TX_TIME. -/
def rttOf (now echo : Nat) : Nat :=
  let span := 2 ^ 32 * nsPerSec
  let t := (echo / 2 ^ 32) * nsPerSec + echo % 2 ^ 32
  ((secsOf now % 2 ^ 32) * nsPerSec + nanosOf now + span - t % span) % span

/-- A window kept from 4 KiB to 8 MiB. -/
def clampWnd (w : Nat) : Nat := max cwndMin (min cwndMax w)

/-- The window after an ACK of `b` bytes with sample `r` (R296). -/
def CcCtx.onAck (c : CcCtx) (r b now targetUs aiKib beta : Nat) : CcCtx :=
  let base := if r < c.base then r else c.base
  let target := base + targetUs * usNs
  if r ≤ target then { c with base := base, cwnd := clampWnd (c.cwnd + aiKib * 1024 * b / c.cwnd) }
  else if c.srtt ≤ now - c.lastCut then
    let cut := c.cwnd * beta * (r - target) / (256 * r)
    { c with base := base, cwnd := clampWnd (max (c.cwnd - cut) (c.cwnd / 2)), lastCut := now }
  else { c with base := base, cwnd := clampWnd c.cwnd }

/-- A context takes an ACK that lands `n` bytes in flight and newly acknowledges `b`; how it smooths its round trip is
open. -/
def State.ackCtx (s : State) (m : Msg) (echo n b : Nat) : State :=
  match m.ctx with
  | none => s
  | some c =>
    match tfind s.fab.ctxs c with
    | none => s
    | some x =>
      let f := s.freeBytes 4
      let y := { x with flight := x.flight - n }.onAck (rttOf s.now echo) b s.now s.fab.target s.fab.aiKib s.fab.beta
      { f.2 with fab := { f.2.fab with ctxs := tset c { y with srtt := leNat f.1 } f.2.fab.ctxs } }

/-! ## Transmission (R277, R281, R296) -/

/-- TYPE of a message's packets. -/
def MsgKind.typ (k : MsgKind) : Nat :=
  match k with
  | .send => pxtSend
  | .write => pxtWrite
  | .readReq => pxtReadReq
  | .readResp => pxtReadResp
  | .flush => pxtFlush
  | .error => pxtError

/-- The message's packets carry payload. -/
def MsgKind.carries (k : MsgKind) : Bool :=
  match k with
  | .send => true
  | .write => true
  | .readResp => true
  | _ => false

/-- The status that ends a message: of a SEND or WRITE, what its reads of the source left (R26). -/
def Msg.endStatus (m : Msg) : Nat :=
  match m.kind with
  | .send => m.code
  | .write => m.code
  | _ => stOk

/-- A lock that keeps the bytes of a packet from leaving: a round or key set that has come to lie over the source since the
message was checked, and over a response also a sealed range (R12, R100, R113, R170, R334, notes/assumptions/67.md). -/
def State.sourceLock (s : State) (m : Msg) (a n : Nat) : Nat :=
  let st := s.lockStatus m.part m.tier a n
  if st ≠ stOk then st else if m.kind = .readResp ∧ s.sealedHit m.part m.tier a n then stSecSealed else stOk

/-- The read of the bytes of packet `pkt`: the new state, the bytes, and the status that ends the message where they cannot
leave. -/
def State.readPacket (s : State) (m : Msg) (pkt : Nat) : State × ReadRes × Nat :=
  let n := m.bytesOf pkt
  let a := m.src + pktBytes * pkt
  if !m.kind.carries then (s, readInit, stOk)
  else if s.sourceLock m a n ≠ stOk then (s, readInit, s.sourceLock m a n)
  else
    let r := s.memRead m.part m.tier a n
    (r.1, r.2, if r.2.good then stOk else r.2.status)

/-- A message whose source cannot be read ends: a response with a NACK ACCESS to the initiator (R292), another with the status
that its descriptor completes with. -/
def State.sourceFault (s : State) (i : Nat) (m : Msg) (pkt port status : Nat) : State :=
  let s1 := if m.kind = .readResp then
      s.sendPacket m.part m.job m.dst m.dstPart port ⟨pxtNack, false, m.gen, nackAccess, m.msgId, pkt, m.len, m.echo, 0, 0, 0⟩ []
    else s
  s1.finishMsg i status

/-- Message `i` with context `c` sends packet `pkt` on `port`. -/
def State.transmit (s : State) (i : Nat) (m : Msg) (c pkt port : Nat) : State :=
  let n := m.bytesOf pkt
  let r := s.readPacket m pkt
  if r.2.2 ≠ stOk then r.1.sourceFault i m pkt port r.2.2
  else
    let o : Outgoing :=
      ⟨m.kind.typ, m.kind.carries && pkt + 1 == packetCount m.len, m.gen, m.code, m.msgId, pkt, m.len, stampOf s.now, m.window,
        m.queue, m.aux⟩
    let s1 := r.1.sendPacket m.part m.job m.dst m.dstPart port
      { o with code := if m.kind = .error then m.code else 0, window := if m.kind = .readResp then 0 else m.window } r.2.1.data
    let x := tget ⟨m.dst, m.dstPart, baseNone, 0, cwndStart, 0, 0, 0⟩ s1.fab.ctxs c
    { s1 with
      fab := { s1.fab with
        ctxs := tset c { x with flight := x.flight + n, used := s1.fab.ctxTick } s1.fab.ctxs, ctxTick := s1.fab.ctxTick + 1
        msgs := tset i
          { m with
            unsent := m.unsent.filter (· != pkt), unacked := m.unacked ++ [(pkt, s.now)], started := true, ctx := some c
            last := if m.started then m.last else s.now
            code := if m.kind = .error then m.code else mergeStatus [m.code, r.2.1.status] } s1.fab.msgs } }

/-- A message sends its next packet on a port, when its context has room. -/
def execPxtTransmit (msg port : Nat) (s : State) : Res :=
  .next (match tfind s.fab.msgs msg with
    | none => s
    | some m =>
      match m.unsent with
      | [] => s
      | pkt :: _ =>
        if !s.isRun ∨ 8 ≤ port ∨ !(tget portInit s.fab.ports port).up ∨ m.rnrWait then s
        else if (s.jobKey m.job).isNone then s.finishMsg msg stFabNoKey
        else match s.ctxFor m.dst m.dstPart with
          | none => if m.ccWait.isSome then s else s.setMsg msg { m with ccWait := some s.now }
          | some (c, s0) =>
            let m1 := { m with ccWait := none }
            let s1 := if m.ccWait.isSome then (s0.setMsg msg m1).countCcWait m else s0
            let x := tget ⟨m.dst, m.dstPart, baseNone, 0, cwndStart, 0, 0, 0⟩ s1.fab.ctxs c
            if x.cwnd ≤ x.flight then s1 else s1.transmit msg m1 c pkt port)

/-! ## Answers -/

/-- A message of this module that an answer is for; among several, the one that sent the packet whose TX_TIME it echoes. -/
def State.answered (s : State) (k : Packet) : Option (Nat × Msg) :=
  let h := k.hdr
  let mine := s.fab.msgs.filter (fun (e : Nat × Msg) => e.2.part == h.dstPart.toNat && e.2.dst == k.src
    && e.2.dstPart == h.srcPart.toNat && e.2.job == h.job.toNat && e.2.msgId == h.msgId.toNat && e.2.gen == h.gen.toNat)
  match mine.find? (fun (e : Nat × Msg) => e.2.unacked.any (fun (u : Nat × Nat) => stampOf u.2 == h.txTime.toNat)) with
  | some e => some e
  | none => mine.head?

/-- The packets that an ACK names. -/
def ackNames (h : PxtHdr) (pkt : Nat) : Bool :=
  decide (h.pktIndex.toNat ≤ pkt) && decide (pkt < h.pktIndex.toNat + 64) && bit h.aux.toNat (pkt - h.pktIndex.toNat)

/-- An ACK: packets acknowledged; a SEND or WRITE whose last one this is completes (R293). A message that was refused is to
be sent again whole, so an ACK of what was sent before the refusal tells nothing of it (R282). -/
def execPxtAckReceive (pkt : Packet) (s : State) : Res :=
  .next (s.opened pxtAck pkt (fun _ _ =>
    match s.answered pkt with
    | none => s
    | some (i, m) =>
      if m.rnrWait then s else
      let got := m.unacked.filter (fun (u : Nat × Nat) => ackNames pkt.hdr u.1)
      let b := (got.map (fun (u : Nat × Nat) => m.bytesOf u.1)).sum
      let again := ((m.unsent.filter (ackNames pkt.hdr)).map m.bytesOf).sum
      let m1 := { m with
        unacked := m.unacked.filter (fun (u : Nat × Nat) => !ackNames pkt.hdr u.1)
        unsent := m.unsent.filter (fun u => !ackNames pkt.hdr u)
        last := s.now }
      let s1 := (s.setMsg i m1).ackCtx m pkt.hdr.txTime.toNat b (b + again)
      if m1.unsent.isEmpty ∧ m1.unacked.isEmpty then
        match m.kind with
        | .readReq => s1
        | .flush => s1
        | _ => s1.finishMsg i m.endStatus
      else s1))

/-- The next wait of a message refused for want of room (R282). -/
def rnrNext (first cur : Nat) : Nat := if cur = 0 then first else min (2 * cur) 1000

/-- A NACK: the message waits to be sent again, or its descriptor completes; while it waits, later ones of it are ignored
(R282). A violation counts at both ends (R290). -/
def execPxtNackReceive (pkt : Packet) (s : State) : Res :=
  .next (s.opened pxtNack pkt (fun p _ =>
    match s.answered pkt with
    | none => s
    | some (i, m) =>
      if m.rnrWait then s
      else match pkt.hdr.code.toNat with
      | 0x01 | 0x02 =>
        (s.setMsg i { m with
          rnrWait := true, rnrUs := rnrNext s.fab.rnr m.rnrUs, last := s.now, unacked := [] }).landed m m.inFlight
      | 0x03 => (s.finishMsg i stFabRemoteAccess).countPart p cntFabAccess
      | 0x04 => (s.finishMsg i stSeamClosed).countPart p cntFabAccess
      | 0x05 => s.finishMsg i stFabRemoteQueue
      | _ => s))

/-- Packets of a message. -/
def Msg.packets (m : Msg) : Nat := if m.kind.carries then packetCount m.len else 1

/-- The wait is over: the whole message again, under GEN + 1 when the ID is this endpoint's. -/
def execPxtRnrResend (msg : Nat) (s : State) : Res :=
  .next (match tfind s.fab.msgs msg with
    | none => s
    | some m =>
      if !m.rnrWait then s
      else
        let s1 := s.atLeast (m.last + m.rnrUs * usNs)
        let gen := if m.kind.own then (m.gen + 1) % 256 else m.gen
        let first := if m.kind = .error then m.aux / 2 ^ 32 / pktBytes else 0
        let s2 := s1.setMsg msg { m with
          gen := gen, rnrWait := false, unacked := [], unsent := (List.range m.packets).map (first + ·), last := s1.now }
        if m.kind.own then { s2 with fab := { s2.fab with idGen := tset (idKey m.part m.msgId) gen s2.fab.idGen } } else s2)

/-! ## READ_RESP (R292, R293) -/

/-- The message of this module that a READ_RESP, FLUSH_RESP or ERROR names by its ID. -/
def State.ownMsg (s : State) (k : Packet) (kind : MsgKind) : Option (Nat × Msg) :=
  let h := k.hdr
  s.fab.msgs.find? (fun (e : Nat × Msg) => e.2.kind == kind && e.2.part == h.dstPart.toNat && e.2.dst == k.src
    && e.2.dstPart == h.srcPart.toNat && e.2.job == h.job.toNat && e.2.msgId == h.msgId.toNat && e.2.gen == h.gen.toNat)

/-- A packet of the response to message `i`: its bytes go to their destination; with the last one the FAB_READ completes. A
destination that refuses them gives its status. A READ_RESP does not renew the wait of R281. -/
def State.respPlace (s : State) (k : Packet) (plain : Bytes) (i : Nat) (m : Msg) (n : Nat) (e : RxEntry) : State :=
  let a := m.src + pktBytes * k.hdr.pktIndex.toNat
  let lock := s.lockStatus m.part m.tier a plain.length
  let w := if lock = stOk then s.memWrite m.part m.tier a plain else (s, readInit)
  let st := if lock ≠ stOk then lock else w.2.status
  let m1 := { m with code := mergeStatus [m.code, st] }
  let e1 := e.take k s.now
  let s1 := (w.1.setMsg i m1).setRx n e1
  if e1.whole then (s1.endRx n e1 .complete).finishMsg i m1.code else s1

/-- A READ_RESP packet. -/
def execPxtReadRespReceive (pkt : Packet) (s : State) : Res :=
  .next (s.opened pxtReadResp pkt (fun p plain =>
    s.judged pkt
      (fun s => match s.ownMsg pkt .readReq with
        | none => s.countPart p cntFabStale
        | some (i, m) =>
          if m.len ≠ pkt.hdr.msgLen.toNat then s.countMod cntFabFormat
          else s.enter pkt (fun s n e => s.respPlace pkt plain i m n e))
      (fun n e => match s.ownMsg pkt .readReq with
        | none => s.countPart p cntFabStale
        | some (i, m) => s.respPlace pkt plain i m n e)))

/-! ## FLUSH_RESP and ERROR (R294, R295) -/

/-- FLUSH_RESP: a failure at the target or the peer's error mark; the mark is cleared. -/
def execPxtFlushRespReceive (pkt : Packet) (s : State) : Res :=
  .next (s.opened pxtFlushResp pkt (fun p _ =>
    match s.ownMsg pkt .flush with
    | none => s
    | some (i, m) =>
      let x := s.peer p m.peer
      let mark := match x with
        | some y => y.err
        | none => false
      let s1 := match x with
        | some y => { s with fab := { s.fab with peers := tset (peerKey p m.peer) { y with err := false } s.fab.peers } }
        | none => s
      s1.finishMsg i (if pkt.hdr.queue.toNat ≠ 0 ∨ mark then stFabPlacementFailed else stOk)))

/-- ERROR: the entries of the peer table that name the target and the job take the error mark. -/
def execPxtErrorReceive (pkt : Packet) (s : State) : Res :=
  .next (s.opened pxtError pkt (fun p _ => s.judged pkt
    (fun s => s.enter pkt (fun s i e =>
      let h := pkt.hdr
      let hit := fun (x : Nat × Peer) => x.1 / 4096 == p && x.2.addr == pkt.src && x.2.part == h.srcPart.toNat
        && x.2.job == h.job.toNat
      let idx := match s.fab.peers.find? hit with
        | some x => x.1 % 4096
        | none => 0xFFFF
      let s1 := s.endRx i (e.take pkt s.now) .complete
      let s2 := { s1 with
        fab := { s1.fab with peers := s1.fab.peers.map (fun x => if hit x then (x.1, { x.2 with err := true }) else x) } }
      s2.raise (srcPort pkt.port) evFabWriteFailed p
        (leBytes 2 idx ++ leBytes 2 h.msgId.toNat ++ leBytes 1 h.gen.toNat ++ leBytes 4 (h.aux.toNat / 2 ^ 32)
          ++ leBytes 4 (h.aux.toNat % 2 ^ 32))))
    (fun _ _ => s)))

/-! ## Timers (R281, R301) -/

/-- Four smoothed round trips, from 20 µs to 1 ms. -/
def rtoOf (srtt : Nat) : Nat := max (20 * usNs) (min msNs (4 * srtt))

/-- A packet was not acknowledged in time: it is sent again, and the window halves. -/
def execPxtRetransmitTimeout (msg pkt : Nat) (s : State) : Res :=
  .next (match tfind s.fab.msgs msg with
    | none => s
    | some m =>
      match m.unacked.find? (fun (u : Nat × Nat) => u.1 == pkt), m.ctx with
      | some u, some c =>
        let x := tget ⟨m.dst, m.dstPart, baseNone, 0, cwndStart, 0, 0, 0⟩ s.fab.ctxs c
        let s1 := s.atLeast (u.2 + rtoOf x.srtt)
        let y := { x with flight := x.flight - m.bytesOf pkt, cwnd := max cwndMin (x.cwnd / 2) }
        let m1 := { m with unacked := m.unacked.filter (fun (v : Nat × Nat) => v.1 != pkt), unsent := pkt :: m.unsent }
        { s1 with fab := { s1.fab with ctxs := tset c y s1.fab.ctxs, msgs := tset msg m1 s1.fab.msgs } }
      | _, _ => s)

/-- No answer for TIMEOUT_MS: the message is abandoned. -/
def execPxtMessageTimeout (msg : Nat) (s : State) : Res :=
  .next (match tfind s.fab.msgs msg with
    | none => s
    | some m =>
      if m.started ∧ !m.rnrWait then (s.atLeast (m.last + s.fab.timeout * msNs)).finishMsg msg stFabTimeout else s)

/-- A port is up. -/
def State.anyUp (s : State) : Bool := (List.range 8).any (fun k => (tget portInit s.fab.ports k).up)

/-- Every port has been down for TIMEOUT_MS while the message waited. -/
def execPortsDownTimeout (msg : Nat) (s : State) : Res :=
  .next (match tfind s.fab.msgs msg with
    | none => s
    | some m =>
      if s.anyUp then s
      else (s.atLeast (max s.fab.downAt m.last + s.fab.timeout * msNs)).finishMsg msg stFabPortsDown)

/-! ## Ports (R302, R303) -/

def State.setPort (s : State) (k : Nat) (x : Port) : State := { s with fab := { s.fab with ports := tset k x s.fab.ports } }

/-- A port's link goes down. -/
def execFabPortDown (port : Nat) (s : State) : Res :=
  .next (let x := tget portInit s.fab.ports port
    if port < 8 ∧ x.up then
      let s1 := s.setPort port ⟨false, min (x.downs + 1) 0xFFFF⟩
      let s2 := if s1.anyUp then s1 else { s1 with fab := { s1.fab with downAt := s1.now } }
      s2.raise (srcPort port) evFabPortDown 0xFF (leBytes 2 port)
    else s)

/-- A port's link comes up. -/
def execFabPortUp (port : Nat) (s : State) : Res :=
  .next (let x := tget portInit s.fab.ports port
    if port < 8 ∧ !x.up then
      (s.setPort port { x with up := true }).raise (srcPort port) evFabPortUp 0xFF (leBytes 2 port)
    else s)

end Sys2Proof.Machine
end

