-- ==== Sys2Proof/Machine/Fabric.lean ====
section
/-! DEFINITION. The fabric descriptors (R297 to R301). After the rows of R258 each is checked against
those of R301 from top to bottom, then against the areas that other rules lock (R100, R170). -/

namespace Sys2Proof.Machine

/-! ## FAB_SEND, FAB_WRITE, FAB_READ, FAB_FLUSH (R293, R295, R300) -/

/-- The peer of a descriptor when it is defined and its job is bound in the partition, and not being unbound. -/
def State.usablePeer (s : State) (p i : Nat) : Option Peer :=
  match s.peer p i with
  | none => none
  | some x =>
    match tfind s.fab.jobs x.job with
    | none => none
    | some j => if j.part = p ∧ !s.fab.unbinds.any (fun (e : Nat × Nat) => e.1 == x.job) then some x else none

/-- Reserved bytes and ranges of the transfer descriptors. -/
def transferFields (d : Bytes) : Bool :=
  let peer := decide (le d 8 2 < 4096) && decide (le d 10 2 ≤ 1024)
  match byteAt d 0 with
  | 0x70 => peer && decide (byteAt d 12 < 64) && zeroAt d 13 3 && (addrAt d 16).plain && zeroAt d 28 36
  | 0x73 => peer && zeroAt d 12 52
  | _ => peer && field (le d 12 4) 11 5 == 0 && (addrAt d 16).plain && zeroAt d 28 4 && zeroAt d 40 24

/-- The status of a transfer descriptor; 0 where it runs. -/
def State.transferStatus (s : State) (p : Nat) (d : Bytes) : Nat :=
  let a := addrAt d 16
  let n := le d 24 4
  if !transferFields d then stFabField
  else match s.usablePeer p (le d 8 2) with
    | none => stFabPeer
    | some x =>
      if byteAt d 0 = 0x73 then (if (s.jobKey x.job).isNone then stFabNoKey else stOk)
      else if n = 0 ∨ maxMessage < n then stFabLength
      else if (s.jobKey x.job).isNone then stFabNoKey
      else s.lockStatus p a.tier a.addr n

/-- The message that a transfer descriptor asks for. -/
def transferMsg (op p now : Nat) (x : Peer) (d : Bytes) : Msg :=
  let n := le d 24 4
  let a := addrAt d 16
  let m := { plainMsg .send p x.addr x.part x.job 0 0 n now with op := some op, peer := le d 8 2 }
  match byteAt d 0 with
  | 0x70 => { m with queue := byteAt d 12, tier := a.tier, src := a.addr, unsent := List.range (packetCount n) }
  | 0x71 => { m with
      kind := .write, window := le d 12 4, aux := le d 32 8, tier := a.tier, src := a.addr, unsent := List.range (packetCount n) }
  | 0x72 => { m with kind := .readReq, window := le d 12 4, aux := le d 32 8, tier := a.tier, src := a.addr, unsent := [0] }
  | _ => { m with kind := .flush, len := 0, unsent := [0] }

/-- A transfer descriptor starts its message; it waits while no message entry or ID is free. -/
def State.transfer (s : State) (opc op : Nat) : State :=
  onReady opc op s (fun o =>
    let p := o.fn - 1
    let st := s.transferStatus p o.bytes
    if st ≠ stOk then s.finishFab op st
    else match s.peer p (le o.bytes 8 2) with
      | none => s
      | some x =>
        match s.startMsg (transferMsg op p s.now x o.bytes) with
        | none => s
        | some s1 => s1.running op o)

def execFabSend (op : Nat) (s : State) : Res := .next (s.transfer 0x70 op)

def execFabWrite (op : Nat) (s : State) : Res := .next (s.transfer 0x71 op)

def execFabRead (op : Nat) (s : State) : Res := .next (s.transfer 0x72 op)

/-- The peer table entry that a fabric descriptor names: a transfer's, a window's, or the one that FAB_PEER writes. -/
def namedPeer (o : Op) : Option Nat :=
  if 0x70 ≤ o.opcode ∧ o.opcode ≤ 0x73 then some (le o.bytes 8 2)
  else if o.opcode = 0x78 ∧ byteAt o.bytes 10 = 0 then some (le o.bytes 12 2)
  else if o.opcode = 0x7A then some (le o.bytes 8 2)
  else none

/-- An earlier fabric descriptor of the ring that names the same peer has not completed (R295). -/
def State.peerBusy (s : State) (op : Nat) (o : Op) : Bool :=
  s.ops.any (fun (e : Nat × Op) => decide (e.1 < op) && e.2.fn == o.fn && e.2.phase != .done && namedPeer e.2 == some (le o.bytes 8 2))

/-- FAB_FLUSH. -/
def execFabFlush (op : Nat) (s : State) : Res :=
  .next (match s.op op with
    | none => s
    | some o => if s.peerBusy op o then s else s.transfer 0x73 op)

/-! ## FAB_CANCEL (R299) -/

/-- The stored descriptor of an armed one, as it stands. -/
def State.storedOf (s : State) (a : Armed) : Bytes := s.ptClean a.part a.tier a.addr 64

/-- What FAB_CANCEL can name in flight: fabric descriptors of a function with a TAG, in the order in which they were
submitted (notes/assumptions/78.md). -/
def State.cancelOps (s : State) (op fn tag : Nat) : List Nat :=
  (s.ops.filter (fun (e : Nat × Op) => decide (e.1 < op) && e.2.fn == fn && e.2.phase != .done && e.2.tag == tag
    && decide (0x70 ≤ e.2.opcode) && decide (e.2.opcode ≤ 0x7B))).map (·.1)

def State.cancelArmed (s : State) (fn tag : Nat) : Option Armed :=
  s.fab.armed.find? (fun (a : Armed) => a.part + 1 == fn && le (s.storedOf a) 4 4 == tag)

/-- A fired stored descriptor that waits for dispatch. -/
def State.cancelFired (s : State) (fn tag : Nat) : Option Fetched :=
  (s.fn fn).fetched.find? (fun (x : Fetched) => x.src == .trigger && le x.bytes 4 4 == tag)

/-- The completion of a cancelled stored descriptor, with its own TAG. -/
def State.cancelStored (s : State) (fn : Nat) (d : Bytes) : State :=
  let s1 := onRep (fun r => r.placeCpl fn ⟨le d 4 4, stFabCancelled, byteAt d 0, 0, [], r.now, false, none⟩) s
  if 0x70 ≤ byteAt d 0 ∧ byteAt d 0 ≤ 0x73 then s1.bump (fn - 1) (le d 10 2) else s1

/-- An armed descriptor is disarmed. -/
def State.disarm (s : State) (a : Armed) : State :=
  ({ s with fab := { s.fab with armed := s.fab.armed.filter (fun (x : Armed) => x.seq != a.seq) } }).cancelStored (a.part + 1)
    (s.storedOf a)

/-- A fired descriptor is not dispatched. -/
def State.unfire (s : State) (fn : Nat) (x : Fetched) : State :=
  (s.setFn fn { s.fn fn with fetched := (s.fn fn).fetched.erase x }).cancelStored fn x.bytes

/-- What a cancelled descriptor of no message waited for: a queue's DELETE and a job's unbind are withdrawn; a window stays
revoked, and its index is free once what was admitted has retired (R291). -/
def State.withdraw (s : State) (id : Nat) : State :=
  { s with
    fab := { s.fab with
      queues := s.fab.queues.map (fun x => if x.2.delOp = some id then (x.1, { x.2 with delOp := none }) else x)
      unbinds := s.fab.unbinds.filter (fun (x : Nat × Nat) => x.2 != id) } }

/-- A descriptor in flight: cancelled when nothing of it has started. -/
def State.cancelOp (s : State) (op id : Nat) : State :=
  match s.fab.msgs.find? (fun (e : Nat × Msg) => e.2.op == some id) with
  | some (i, m) =>
    if m.started ∨ m.rnrWait then s.finish op stFabTooLate else (s.finishMsg i stFabCancelled).finish op stOk
  | none => ((s.withdraw id).finishFab id stFabCancelled).finish op stOk

/-- FAB_CANCEL. -/
def execFabCancel (op : Nat) (s : State) : Res :=
  .next (onReady 0x74 op s (fun o =>
    let d := o.bytes
    let tag := le d 16 4
    if !zeroAt d 8 8 ∨ !zeroAt d 20 44 then s.finish op stFabField
    else
      match (s.cancelOps op o.fn tag).head?, s.cancelFired o.fn tag, s.cancelArmed o.fn tag with
      | none, none, none => s.finish op stFabNotFound
      | none, some x, _ => (s.unfire o.fn x).finish op stOk
      | none, none, some a => (s.disarm a).finish op stOk
      | some id, _, none => s.cancelOp op id
      | some id, _, some a => if a.seq < id then (s.disarm a).finish op stOk else s.cancelOp op id))

/-! ## FAB_TRIGGER_ARM, FAB_COUNTER (R297, R298) -/

def armedMax : Nat := 4096

/-- FAB_TRIGGER_ARM: what its counter has reached fires at once. -/
def execFabTriggerArm (op : Nat) (s : State) : Res :=
  .next (onReady 0x75 op s (fun o =>
    let p := o.fn - 1
    let d := o.bytes
    let a := addrAt d 16
    let c := le d 8 2
    if 1024 ≤ c ∨ !zeroAt d 10 2 ∨ !zeroAt d 24 40 ∨ !a.plain then s.finish op stFabField
    else if armedMax ≤ (s.fab.armed.filter (fun (x : Armed) => x.part == p)).length then s.finish op stFabTriggerFull
    else if s.lockStatus p a.tier a.addr 64 ≠ stOk then s.finish op (s.lockStatus p a.tier a.addr 64)
    else
      let x : Armed := ⟨p, c, le d 12 4, a.tier, a.addr, op⟩
      let s1 := ({ s with fab := { s.fab with armed := s.fab.armed ++ [x] } }).finish op stOk
      if reached (s.trigger p c) x.thr then s1.fire x else s1))

/-- FAB_COUNTER with the given OP; an OP that R300 does not list is out of range. -/
def State.fabCounter (s : State) (op which : Nat) : State :=
  onReady 0x76 op s (fun o =>
    let p := o.fn - 1
    let d := o.bytes
    let c := le d 8 2
    if 1024 ≤ c ∨ 2 ≤ byteAt d 10 ∨ !zeroAt d 11 1 ∨ !zeroAt d 16 48 then s.finish op stFabField
    else if byteAt d 10 ≠ which then s
    else (s.setTrigger p c (if which = 0 then le d 12 4 else s.trigger p c + le d 12 4)).finish op stOk)

def execFabCounterSet (op : Nat) (s : State) : Res := .next (s.fabCounter op 0)

def execFabCounterAdd (op : Nat) (s : State) : Res := .next (s.fabCounter op 1)

/-! ## FAB_WINDOW (R288, R291) -/

/-- Reserved bytes and ranges; those of CREATE are not looked at with REVOKE. -/
def windowFields (d : Bytes) : Bool :=
  let a := addrAt d 16
  let seam := bit (byteAt d 11) 2
  decide (le d 8 2 < 2048) && decide (byteAt d 10 < 2) && zeroAt d 35 29
    && (byteAt d 10 == 1 || (decide (byteAt d 11 < 8) && !(seam && bit (byteAt d 11) 0)
      && (decide (le d 12 2 < 4096) || le d 12 2 == 0xFFFF) && decide (le d 14 2 ≤ 1024)
      && (if seam then decide (le d 32 2 < 1024) && decide (byteAt d 34 < 4) else a.plain && zeroAt d 32 3)))

/-- The status of a CREATE; 0 where it runs. -/
def State.windowStatus (s : State) (p : Nat) (d : Bytes) : Nat :=
  let a := addrAt d 16
  let n := le d 24 8
  if le d 12 2 ≠ 0xFFFF ∧ (s.usablePeer p (le d 12 2)).isNone then stFabPeer
  else if n = 0 ∨ maxMessage < n then stFabLength
  else if (match s.window p (le d 8 2) with
    | some w => w.live || w.revoke.isSome
    | none => false) then stFabWindowId
  else if bit (byteAt d 11) 2 then
    match s.region p (le d 32 2) with
    | none => stSeamRegionId
    | some r => if formOk r.kind (byteAt d 34) (kindFmt r.kind) then stOk else stSeamFormat
  else if !s.inUnits p a.tier a.addr n then stHifSpace
  else s.lockStatus p a.tier a.addr n

/-- FAB_WINDOW CREATE: WGEN rises by one; DETAIL carries it. -/
def execFabWindowCreate (op : Nat) (s : State) : Res :=
  .next (onReady 0x78 op s (fun o =>
    let p := o.fn - 1
    let d := o.bytes
    if !windowFields d then s.finish op stFabField
    else if byteAt d 10 ≠ 0 then s
    else
      let st := s.windowStatus p d
      if st ≠ stOk then s.finish op st
      else
        let a := addrAt d 16
        let old := match s.window p (le d 8 2) with
          | some w => w.wgen
          | none => 0
        let gen := (old + 1) % 65536
        let w : Window := ⟨gen, true, a.tier, a.addr, le d 24 8, byteAt d 11, le d 12 2, le d 14 2, le d 32 2, byteAt d 34, none⟩
        (s.setWindow p (le d 8 2) w).finish op stOk (leBytes 2 gen)))

/-- FAB_WINDOW REVOKE: nothing more is admitted; it completes when what was admitted has retired. -/
def execFabWindowRevoke (op : Nat) (s : State) : Res :=
  .next (onReady 0x78 op s (fun o =>
    let p := o.fn - 1
    let d := o.bytes
    let i := le d 8 2
    if !windowFields d then s.finish op stFabField
    else if byteAt d 10 ≠ 1 then s
    else match s.window p i with
      | none => s.finish op stFabWindowId
      | some w =>
        if !w.live then s.finish op stFabWindowId
        else ((s.setWindow p i { w with live := false, revoke := some op }).running op o).settleWindow p i))

/-! ## FAB_RQ (R285, R300) -/

/-- A round of partition `p` is not IDLE. -/
def State.roundBusy (s : State) (p : Nat) : Bool := (s.round (2 * p)).st != .idle || (s.round (2 * p + 1)).st != .idle

/-- The status of a FAB_RQ CREATE; 0 where it runs. -/
def State.rqStatus (s : State) (p : Nat) (d : Bytes) : Nat :=
  let a := addrAt d 16
  let c := le d 12 4
  let n := c * 2 ^ byteAt d 10 + 4 * c
  if 63 < byteAt d 8 ∨ byteAt d 10 < 12 ∨ 18 < byteAt d 10 ∨ !zeroAt d 11 1 ∨ c = 0 ∨ 2 ^ 20 < c ∨ !a.plain ∨ 1024 < le d 24 2
      ∨ !zeroAt d 26 38 ∨ (byteAt d 8 = 0 ∧ s.roundBusy p) then stFabField
  else if (s.rxq p (byteAt d 8)).isSome then stFabBusy
  else s.lockStatus p a.tier a.addr n

/-- FAB_RQ CREATE: every buffer is free. A MODE that R300 does not list is out of range. -/
def execFabRqCreate (op : Nat) (s : State) : Res :=
  .next (onReady 0x79 op s (fun o =>
    let p := o.fn - 1
    let d := o.bytes
    let a := addrAt d 16
    if 2 < byteAt d 9 then s.finish op stFabField
    else if byteAt d 9 ≠ 0 then s
    else
      let st := s.rqStatus p d
      if st ≠ stOk then s.finish op st
      else
        (s.setRxq p (byteAt d 8)
          ⟨byteAt d 10, le d 12 4, a.tier, a.addr, List.range (le d 12 4), le d 24 2, none⟩).finish op stOk))

/-- The chain of buffers from `b`, by the chain array. -/
def State.chainOf (s : State) (p : Nat) (q : RxQueue) : Nat → Nat → List Nat
  | 0, _ => []
  | fuel + 1, b => if q.count ≤ b then [] else b :: s.chainOf p q fuel (leNat (s.ptClean p q.tier (q.chain + 4 * b) 4))

/-- Reserved bytes of RETURN and DELETE. -/
def rqFields (d : Bytes) : Bool := decide (byteAt d 8 < 64) && zeroAt d 10 2 && zeroAt d 16 48

/-- FAB_RQ RETURN: a whole chain goes back to the free list. -/
def execFabRqReturn (op : Nat) (s : State) : Res :=
  .next (onReady 0x79 op s (fun o =>
    let p := o.fn - 1
    let d := o.bytes
    if 2 < byteAt d 9 then s.finish op stFabField
    else if byteAt d 9 ≠ 1 then s
    else match s.rxq p (byteAt d 8) with
      | none => s.finish op stFabField
      | some q =>
        if !rqFields d ∨ q.count ≤ le d 12 4 then s.finish op stFabField
        else (s.giveBack p (byteAt d 8) (s.chainOf p q q.count (le d 12 4)).eraseDups).finish op stOk))

/-- FAB_RQ DELETE: completes when no message is open on the queue. -/
def execFabRqDelete (op : Nat) (s : State) : Res :=
  .next (onReady 0x79 op s (fun o =>
    let p := o.fn - 1
    let d := o.bytes
    if 2 < byteAt d 9 then s.finish op stFabField
    else if byteAt d 9 ≠ 2 then s
    else match s.rxq p (byteAt d 8) with
      | none => s.finish op stFabField
      | some q =>
        if !rqFields d ∨ !zeroAt d 12 4 ∨ q.delOp.isSome ∨ (byteAt d 8 = 0 ∧ s.roundBusy p) then s.finish op stFabField
        else ((s.setRxq p (byteAt d 8) { q with delOp := some op }).running op o).settleQueue p (byteAt d 8)))

/-! ## FAB_PEER, FAB_JOB (R274, R276, R300) -/

/-- Reserved bytes and ranges of FAB_PEER. -/
def peerFields (d : Bytes) : Bool :=
  decide (le d 8 2 < 4096) && decide (byteAt d 32 < 2) && zeroAt d 11 1 && zeroAt d 14 2 && zeroAt d 33 31
    && (byteAt d 32 == 1 || decide (byteAt d 10 < 32))

/-- FAB_PEER set: the entry names an endpoint and a job; its error mark is clear. -/
def execFabPeerSet (op : Nat) (s : State) : Res :=
  .next (onReady 0x7A op s (fun o =>
    let p := o.fn - 1
    let d := o.bytes
    if !peerFields d then s.finish op stFabField
    else if byteAt d 32 ≠ 0 then s
    else
      let x : Peer := ⟨BitVec.ofNat 128 (beNat (slice d 16 16)), byteAt d 10, le d 12 2, false⟩
      ({ s with fab := { s.fab with peers := tset (peerKey p (le d 8 2)) x s.fab.peers } }).finish op stOk))

/-- FAB_PEER clear. -/
def execFabPeerClear (op : Nat) (s : State) : Res :=
  .next (onReady 0x7A op s (fun o =>
    let p := o.fn - 1
    let d := o.bytes
    if !peerFields d then s.finish op stFabField
    else if byteAt d 32 ≠ 1 then s
    else ({ s with fab := { s.fab with peers := tdel (peerKey p (le d 8 2)) s.fab.peers } }).finish op stOk))

/-- Reserved bytes and ranges of FAB_JOB. -/
def jobFields (d : Bytes) : Bool := decide (byteAt d 11 < 2) && zeroAt d 12 52

/-- TX_SEQ of a job bound to a key: 1, or where it stood when the job was last bound to the same key (R276). -/
def State.jobSeq (s : State) (job : Nat) (key : Bytes) : Nat :=
  match tfind s.fab.jobs job with
  | some j => if (s.slot j.slot).key = key then j.txSeq else 1
  | none =>
    match tfind s.fab.jobSeqs job with
    | some (h, n) => if h = sha384 key then n else 1
    | none => 1

/-- FAB_JOB bind. -/
def execFabJobBind (op : Nat) (s : State) : Res :=
  .next (onReady 0x7B op s (fun o =>
    let p := o.fn - 1
    let d := o.bytes
    let job := le d 8 2
    let slot := byteAt d 10
    let k := s.slot slot
    let other := match tfind s.fab.jobs job with
      | some j => decide (j.part ≠ p) || s.fab.unbinds.any (fun (e : Nat × Nat) => e.1 == job)
      | none => false
    if !jobFields d then s.finish op stFabField
    else if byteAt d 11 ≠ 0 then s
    else if other then s.finish op stFabBusy
    else if !k.usable engPxt p then s.finish op stFabNoKey
    else
      let j : Job := ⟨p, slot, s.jobSeq job k.key⟩
      ({ s with fab := { s.fab with jobs := tset job j s.fab.jobs } }).finish op stOk))

/-- FAB_JOB unbind: completes when no message of the job is in flight. -/
def execFabJobUnbind (op : Nat) (s : State) : Res :=
  .next (onReady 0x7B op s (fun o =>
    let p := o.fn - 1
    let d := o.bytes
    let job := le d 8 2
    let mine := match tfind s.fab.jobs job with
      | some j => j.part == p && !s.fab.unbinds.any (fun (e : Nat × Nat) => e.1 == job)
      | none => false
    if !jobFields d then s.finish op stFabField
    else if byteAt d 11 ≠ 1 then s
    else if !mine then s.finish op stFabField
    else
      (({ s with fab := { s.fab with unbinds := s.fab.unbinds ++ [(job, op)] } }).running op o).settleJob job))

end Sys2Proof.Machine
end

