-- ==== Sys2Proof/Machine/NandOps.lean ====
section
/-! DEFINITION. The NAND of tier C as shared operations: pages as they are stored (R216, R218, R233), dies and their spares
(R214, R215, R227 to R231), stripes and their parity (R217), where a page is programmed (R225, R230), blocks that move
(R225 to R227), rebuilding and what a read of a codeword meets (R216, R226, R228, R229). -/

namespace Sys2Proof.Machine

/-! ## Logical blocks and pages (R216, R218) -/

def lbBytes : Nat := 4096

def pageData : Nat := 16384

/-- The number of a logical block: its XTS tweak. -/
def lbKey (p lbn : Nat) : Nat := p * 2 ^ 36 + lbn

/-- Bytes of the partition's tier C range. -/
def PartCfg.tierCBytes (c : PartCfg) : Nat := c.tierC.length * 2 ^ 35

def State.lblock (s : State) (p lbn : Nat) : Option LBlock := tfind s.flc.lblocks (lbKey p lbn)

/-- A page of NAND: stripe block, die, page offset. -/
def pageKey (sb die k : Nat) : Nat := (sb * 64 + die) * 1024 + k

def pageSb (key : Nat) : Nat := key / 65536

def pageDie (key : Nat) : Nat := key / 1024 % 64

def pageNo (key : Nat) : Nat := key % 1024

/-- A 4 KiB data unit of a log page as it is stored. The tweak of a log page is open (notes/assumptions/81.md). -/
def logPiece (p seq : Nat) (key : Bytes) (i : Nat) (d : Bytes) : Bytes :=
  xtsEncrypt key (Config.logTweak p (4 * seq + i)) (slice d (lbBytes * i) lbBytes)

/-- The 16 KiB that a page stores: ciphertext of its logical blocks or of its log page, zero beyond them. -/
def PageBody.stored (b : PageBody) : Bytes :=
  match b with
  | .blocks lbs => slice (lbs.flatMap (fun (e : Nat × Bytes × Bytes) => xtsEncrypt e.2.1 e.1 (slice e.2.2 0 lbBytes))) 0 pageData
  | .log p seq key d => (List.range 4).flatMap (fun i => logPiece p seq key i d)
  | .bytes d => slice d 0 pageData

/-- The content of logical block `k`, codeword `idx` of a page, under the data key of now (R218). -/
def PageBody.plain (b : PageBody) (k idx : Nat) (key : Bytes) : Bytes :=
  match b with
  | .blocks lbs =>
    let e := lbs.getD idx (k, key, [])
    if e.2.1 = key then slice e.2.2 0 lbBytes else xtsDecrypt key k (xtsEncrypt e.2.1 k (slice e.2.2 0 lbBytes))
  | b => xtsDecrypt key k (slice b.stored (lbBytes * idx) lbBytes)

/-- The content of a log page under the data key of now. -/
def PageBody.plainLog (b : PageBody) (p seq : Nat) (key : Bytes) : Bytes :=
  let dec := fun (bs : Bytes) => (List.range 4).flatMap (fun i =>
    xtsDecrypt key (Config.logTweak p (4 * seq + i)) (slice bs (lbBytes * i) lbBytes))
  match b with
  | .log _ _ k d => if k = key then slice d 0 pageData else dec b.stored
  | b => dec b.stored

/-! ## Footers (R233) -/

/-- The footer of a page of the checkpoint region or the dump area. -/
def footer (seq gen kind p page : Nat) (data : Bytes) : Bytes :=
  let b := leBytes 8 seq ++ leBytes 4 gen ++ leBytes 1 kind ++ leBytes 1 p ++ zeros 2 ++ leBytes 4 page ++ zeros 8
  b ++ leBytes 4 (crc32c (data ++ b))

/-- The CRC of a footer is that of the page. -/
def footerCrcOk (data foot : Bytes) : Bool := foot.drop 28 == leBytes 4 (crc32c (data ++ foot.take 28))

/-- The page decodes, with a valid footer CRC. -/
def NPage.valid (x : NPage) : Bool := !x.bad && footerCrcOk x.body.stored x.footer

/-! ## Dies (R214, R215, R227 to R231) -/

def dieCount : Nat := 64

/-- The parity group of a die: dies are numbered along the channels, four a channel, and group k holds die position k of
every channel (R214). -/
def groupOfDie (d : Nat) : Nat := d % 4

/-- The channel of a die. -/
def channelOf (d : Nat) : Nat := d / 4

/-- Spare blocks of a die as shipped: 900 GiB or 1,860 GiB in TLC blocks of 12 MiB over 64 dies (R215). -/
def spareBlocksOf (tib : Nat) : Nat := (if tib = 6 then 900 else 1860) * 1024 / 12 / 64

def State.die (s : State) (d : Nat) : Die := tget (dieInit (spareBlocksOf s.glb.tib)) s.flc.dies d

/-- Blocks of a die: 2,784 in each of 4 or 8 planes. -/
def State.dieBlocks (s : State) : Nat := (if s.glb.tib = 6 then 4 else 8) * 2784

/-- Pages of a block: 768 in TLC, 256 in pSLC. -/
def SBlock.pagesPer (b : SBlock) : Nat := if b.region = 0 then 768 else 256

/-- Spare blocks on the dies that still take writes. -/
def State.spareBlocks (s : State) : Nat :=
  ((List.range dieCount).map (fun d => if (s.die d).readOnly then 0 else (s.die d).spares)).sum

def blkKey (d blk : Nat) : Nat := d * 65536 + blk

/-- Block `blk` of a die is one of a stripe block. -/
def State.blockUsed (s : State) (d blk : Nat) : Bool :=
  s.flc.sblks.any (fun (e : Nat × SBlock) => tfind e.2.blks d == some blk)

/-- Block `blk` of a die can be drawn: no grown defect, not in use, erased. -/
def State.blockFree (s : State) (d blk : Nat) : Bool :=
  !s.flc.badBlks.contains (blkKey d blk) && !s.flc.freeBlks.contains (blkKey d blk) && !s.blockUsed d blk

/-- The first block from `b` that is free and has never been erased. -/
def State.freshBlock (s : State) (d : Nat) : Nat → Nat → Option Nat
  | 0, _ => none
  | fuel + 1, b => if s.blockFree d b && tget 0 s.flc.erases (blkKey d b) == 0 then some b else s.freshBlock d fuel (b + 1)

/-- The free block of a die with the lowest erase count, the first of them (R225). -/
def State.drawBlock (s : State) (d : Nat) : Option Nat :=
  match s.freshBlock d s.dieBlocks 0 with
  | some b => some b
  | none =>
    let worn := s.flc.erases.filter (fun (e : Nat × Nat) =>
      e.1 / 65536 == d && decide (e.1 % 65536 < s.dieBlocks) && s.blockFree d (e.1 % 65536))
    (worn.foldl (fun (a : Option (Nat × Nat)) e => match a with
      | some x => if e.2 < x.2 then some e else a
      | none => some e) none).map (fun e => e.1 % 65536)

/-- The dies of a parity group that take writes (R217, R230). -/
def State.writeDies (s : State) (g : Nat) : List Nat :=
  (List.range dieCount).filter (fun d => groupOfDie d == g && !(s.die d).readOnly)

/-! ## Stripes (R217) -/

/-- The XOR of pages. -/
def xorPages (l : List Bytes) : Bytes := l.foldl xorBytes (zeros pageData)

/-- The other pages of a page's stripe: those at its offset on the other dies of its stripe block. -/
def State.stripeOthers (s : State) (key : Nat) : Tbl NPage :=
  s.flc.pages.filter (fun (e : Nat × NPage) => pageSb e.1 == pageSb key && pageNo e.1 == pageNo key && e.1 != key)

/-- The stripe of a page has its parity page. -/
def State.stripeWhole (s : State) (key : Nat) : Bool :=
  match tfind s.flc.sblks (pageSb key) with
  | some b => decide (pageNo key < b.next)
  | none => false

/-- The rebuild of a page from its stripe: it succeeds only when each other page decodes (R217). `unread` are pages that
fail now. -/
def State.rebuild (s : State) (key : Nat) (unread : List Nat) : Option Bytes :=
  let others := s.stripeOthers key
  if s.stripeWhole key && others.all (fun (e : Nat × NPage) =>
      !e.2.bad && !(s.die (pageDie e.1)).gone && !unread.contains e.1) then
    some (xorPages (others.map (fun (e : Nat × NPage) => e.2.body.stored)))
  else none

/-! ## Where a page is programmed (R217, R225, R230) -/

/-- The parity group that the controller chooses for its next stripe block of a region, among those with two dies or more
that take writes. -/
def State.chooseGroup (s : State) : Option Nat :=
  match (List.range 4).filter (fun g => decide (2 ≤ (s.writeDies g).length)) with
  | [] => none
  | [g] => some g
  | g :: gs => some ((g :: gs).getD (Config.flashGroup s.flc.writeNo % (gs.length + 1)) g)

/-- The stripe block of a region that takes pages; a new one draws a block of every die of its group that takes writes. -/
def State.openBlock (s : State) (region : Nat) : Option (State × Nat × SBlock) :=
  match s.chooseGroup with
  | none => none
  | some g =>
    match s.flc.sblks.find? (fun (e : Nat × SBlock) => e.2.region == region && e.2.group == g && e.2.opened) with
    | some e => some (s, e.1, e.2)
    | none =>
      let b : SBlock := ⟨region, g, (s.writeDies g).filterMap (fun d => (s.drawBlock d).map (fun x => (d, x))), 0, [], true⟩
      some (s.setFlc { s.flc with sblks := tset s.flc.nextSb b s.flc.sblks, nextSb := s.flc.nextSb + 1 }, s.flc.nextSb, b)

/-- The dies of the stripe that a stripe block fills: fixed when the stripe begins. -/
def State.stripeDies (s : State) (b : SBlock) : List Nat :=
  if b.stripe.isEmpty then (b.blks.map (·.1)).filter (fun d => !(s.die d).readOnly)
  else b.stripe.filter (fun d => !(s.die d).gone)

/-- The dies of the current stripe that have no page yet. -/
def State.stripeLeft (s : State) (sb : Nat) (b : SBlock) : List Nat :=
  (s.stripeDies b).filter (fun d => (tfind s.flc.pages (pageKey sb d b.next)).isNone)

/-- The parity die of a stripe: the (s mod D)-th of its D dies; stripes are numbered by stripe block, then by page offset. -/
def parityDie (sb next : Nat) (dies : List Nat) : Option Nat :=
  dies[(sb * 768 + next) % dies.length]?

/-- The next page of a region: the state with its stripe block open, the block, the die. A stripe block whose dies no longer
carry a stripe is closed and another is tried. -/
def State.nextSlot (region : Nat) : Nat → State → Option (State × Nat × SBlock × Nat)
  | 0, _ => none
  | fuel + 1, s =>
    match s.openBlock region with
    | none => none
    | some (s1, sb, b) =>
      let left := s1.stripeLeft sb b
      match left.find? (fun d => parityDie sb b.next (s1.stripeDies b) != some d), left with
      | some d, _ :: _ :: _ => some (s1, sb, b, d)
      | _, _ =>
        State.nextSlot region fuel (s1.setFlc { s1.flc with sblks := tset sb { b with opened := false } s1.flc.sblks })

def slotTries : Nat := 16

/-- A page stored at its place; the last data page of a stripe is followed by the stripe's parity page. Answers the page's
key. -/
def State.storePage (s : State) (sb : Nat) (b : SBlock) (d : Nat) (x : NPage) : State × Nat :=
  let key := pageKey sb d b.next
  let dies := s.stripeDies b
  let s1 := s.setFlc { s.flc with pages := tset key x s.flc.pages, writeNo := s.flc.writeNo + 1 }
  match s1.stripeLeft sb { b with stripe := dies } with
  | [par] =>
    let pk := pageKey sb par b.next
    let parity : NPage := ⟨.bytes (xorPages ((s1.stripeOthers pk).map (fun (e : Nat × NPage) => e.2.body.stored))), [], false⟩
    let b1 := { b with next := b.next + 1, stripe := [], opened := decide (b.next + 1 < b.pagesPer) }
    (s1.setFlc { s1.flc with pages := tset pk parity s1.flc.pages, sblks := tset sb b1 s1.flc.sblks }, key)
  | _ => (s1.setFlc { s1.flc with sblks := tset sb { b with stripe := dies } s1.flc.sblks }, key)

/-! ## What pages hold -/

/-- The pages of a stripe block on one die. -/
def State.blockPages (s : State) (sb d : Nat) : Tbl NPage :=
  s.flc.pages.filter (fun (e : Nat × NPage) => pageSb e.1 == sb && pageDie e.1 == d)

/-- Logical blocks or a generation of a log have their data in a page. -/
def State.pageValid (s : State) (key : Nat) : Bool :=
  s.flc.lblocks.any (fun (e : Nat × LBlock) => e.2.page == key && !e.2.lost)
    || s.flc.ckpts.any (fun (e : Nat × List Gen) => e.2.any (fun g => g.pages.any (fun (q : Nat × Nat) => q.2 == key)))

/-- A stripe block holds data, or pages of the system region. -/
def State.blockHolds (s : State) (sb : Nat) (b : SBlock) : Bool :=
  b.opened || b.region == 2
    || s.flc.lblocks.any (fun (e : Nat × LBlock) => pageSb e.2.page == sb)
    || s.flc.ckpts.any (fun (e : Nat × List Gen) => e.2.any (fun g => g.pages.any (fun (q : Nat × Nat) => pageSb q.2 == sb)))

/-- The stripe block that a block of a die belongs to. -/
def State.blockAt (s : State) (d blk : Nat) : Option (Nat × SBlock) :=
  s.flc.sblks.find? (fun (e : Nat × SBlock) => tfind e.2.blks d == some blk)

/-! ## Blocks that move (R225 to R227) -/

/-- Relocated pages as one extent; a block of TLC, 12 MiB, fits one. -/
def State.relocate (s : State) (pages : List StagedPage) : State :=
  if pages.isEmpty then s else s.addExtent none none false (pages.length * pageData) pages

/-- The data of a block of a stripe block goes to another block of the same die, which takes its place in the stripes, page by
page through staging. Answers whether there was one. -/
def State.moveBlock (s : State) (sb d : Nat) : Bool × State :=
  match tfind s.flc.sblks sb, s.drawBlock d with
  | some b, some nb =>
    let s1 := s.setFlc { s.flc with sblks := tset sb { b with blks := tset d nb b.blks } s.flc.sblks }
    (true, s1.relocate ((s.blockPages sb d).map (fun (e : Nat × NPage) => ⟨.back e.1, e.2.body, e.2.footer⟩)))
  | _, _ => (false, s)

/-- A block without data waits for its erasure. -/
def State.freeBlock (s : State) (d blk : Nat) : State :=
  s.setFlc { s.flc with freeBlks := if s.flc.freeBlks.contains (blkKey d blk) then s.flc.freeBlks else blkKey d blk :: s.flc.freeBlks }

/-- A block's data moves and the block returns to use (R225, R226). -/
def State.recycle (s : State) (sb d : Nat) : State :=
  match (tfind s.flc.sblks sb).bind (fun b => tfind b.blks d) with
  | none => s
  | some blk => let m := s.moveBlock sb d; if m.1 then m.2.freeBlock d blk else s

/-- Refresh: a move that is no error, counted (R226). -/
def State.refreshBlock (s : State) (sb d : Nat) : State := (s.recycle sb d).countMod cntFlcRefresh

/-- A die turns read-only, once (R230). -/
def State.readOnlyDie (s : State) (d : Nat) : State :=
  let x := s.die d
  if x.readOnly then s
  else (s.setFlc { s.flc with dies := tset d { x with readOnly := true } s.flc.dies }).raise srcFlash evFlcDieReadOnly 0xFF
    (leBytes 1 d)

/-- A die's spare reserve below 2 % closes it; a tier reserve below 0.5 % protects the tier for good (R230, R231). -/
def State.settleSpares (s : State) (d : Nat) : State :=
  let s1 := if (s.die d).spares * 100 < 2 * s.dieBlocks then s.readOnlyDie d else s
  if !s1.flc.wp ∧ s1.spareBlocks * 1000 < 5 * (dieCount * s1.dieBlocks) then
    (s1.setFlc { s1.flc with wp := true, st := if s1.flc.st = 2 then 3 else s1.flc.st }).raise srcFlash evFlcWriteProtect 0xFF []
  else s1

/-- A grown defect: the block retires, a spare of its die takes its place, its data moves (R227). -/
def State.growDefect (s : State) (sb d : Nat) : State :=
  match (tfind s.flc.sblks sb).bind (fun b => tfind b.blks d) with
  | none => s
  | some blk =>
    let s1 := s.setFlc { s.flc with badBlks := blkKey d blk :: s.flc.badBlks }
    let s2 := (s1.moveBlock sb d).2
    let x := s2.die d
    let s3 := s2.setFlc { s2.flc with dies := tset d { x with spares := x.spares - 1 } s2.flc.dies }
    ((s3.raise srcFlash evFlcGrownDefect 0xFF (leBytes 1 d ++ leBytes 4 blk)).countMod cntFlcRetired).settleSpares d

/-! ## Failed codewords (R216, R228) -/

/-- The logical block of a codeword is lost. -/
def State.loseBlock (s : State) (key idx : Nat) : State :=
  s.setFlc { s.flc with
    lblocks := s.flc.lblocks.map (fun (e : Nat × LBlock) =>
      if e.2.page = key ∧ e.2.idx = idx then (e.1, { e.2 with lost := true }) else e) }

def State.setPage (s : State) (key : Nat) (x : NPage) : State := s.setFlc { s.flc with pages := tset key x s.flc.pages }

/-- The pages that `errs`, by codeword, makes fail now. -/
def unreadPages (errs : List (Nat × FlashErr)) : List Nat :=
  (errs.filter (fun e => e.2 == .lasting || e.2 == .dieGone)).map (fun e => e.1 / 4)

/-- The dies of a group stripe without a die that is gone: its pages that hold data are rebuilt and moved (R229); data that
cannot be rebuilt is lost (R228). -/
def State.evacuate (s : State) (d : Nat) : State :=
  s.flc.sblks.foldl (fun s (e : Nat × SBlock) =>
    let mine := (s.blockPages e.1 d).filter (fun (x : Nat × NPage) => s.pageValid x.1)
    let dead := mine.filter (fun (x : Nat × NPage) => (s.rebuild x.1 []).isNone)
    let s1 := dead.foldl (fun s (x : Nat × NPage) =>
      (List.range 4).foldl (fun s i => s.loseBlock x.1 i) (s.setPage x.1 { x.2 with bad := true })) s
    s1.relocate (mine.filterMap (fun (x : Nat × NPage) =>
      (s.rebuild x.1 []).map (fun b => ⟨.moved x.1, .bytes b, x.2.footer⟩)))) s

/-- What was to be programmed in place on a die leaves the gate. -/
def State.dropBack (s : State) (d : Nat) : State :=
  let on := fun (x : StagedPage) => match x.dest with
    | .back key => pageDie key == d
    | _ => false
  s.dropExtents (fun x => x.pages.any on)

/-- A die whose every access fails is retired whole (R229). -/
def State.loseDie (s : State) (d : Nat) : State :=
  if (s.die d).gone then s
  else
    let s1 := s.readOnlyDie d
    ((s1.setFlc { s1.flc with dies := tset d { s1.die d with gone := true } s1.flc.dies }).dropBack d |>.evacuate d).settleSpares d

/-- A codeword that failed its re-read (R216): the page is rebuilt from its stripe and its block retires, or the codeword's
logical block is lost (R228). A die that is gone has been retired already. -/
def State.failCode (s : State) (errs : List (Nat × FlashErr)) (own : Option Nat) (key idx : Nat) : State × Nat :=
  let s1 := s.countError own cntLasting
  let sb := pageSb key
  let retire := fun (s : State) => if (s.die (pageDie key)).gone then s else s.growDefect sb (pageDie key)
  match s1.rebuild key (unreadPages errs), tfind s.flc.pages key with
  | some b, some x => (retire (s1.setPage key { x with body := .bytes b, bad := false }), stLastingFlash)
  | _, some x => (retire ((s1.setPage key { x with bad := true }).loseBlock key idx), stFlcUncorrectable)
  | _, none => (s1.loseBlock key idx, stFlcUncorrectable)

/-- A read of codeword `idx` of a page: `errs` names what codewords meet, as four times the page and the codeword. Answers
the status. -/
def State.readCode (errs : List (Nat × FlashErr)) (own : Option Nat) (s : State) (key idx : Nat) : State × Nat :=
  let d := pageDie key
  if (s.die d).gone || ((tfind s.flc.pages key).map (·.bad)).getD true then s.failCode errs own key idx
  else match errs.find? (fun (e : Nat × FlashErr) => e.1 == 4 * key + idx) with
    | none => (s, stOk)
    | some (_, .corrected) => (s.countMod cntFlcCorrected, stOk)
    | some (_, .refresh) => ((s.countMod cntFlcCorrected).refreshBlock (pageSb key) d, stOk)
    | some (_, .transient) => (s.countError own cntTransient, stTransientFlash)
    | some (_, .lasting) => s.failCode errs own key idx
    | some (_, .dieGone) => (s.loseDie d).failCode errs own key idx

/-! ## Programming a staged page -/

/-- The logical blocks that a page brings take their place in the mapping tables (R220). -/
def mapBlocks (key : Nat) (lbs : List (Nat × Bytes × Bytes)) (t : Tbl LBlock) : Tbl LBlock :=
  (lbs.mapIdx (fun i (e : Nat × Bytes × Bytes) => (i, e.1))).foldl (fun t (e : Nat × Nat) => tset e.2 ⟨key, e.1, false, false⟩ t) t

/-- Page `page` of a generation is programmed at `key`. -/
def State.logPage (s : State) (p gen page key : Nat) : State :=
  s.setFlc { s.flc with
    ckpts := tmod [] p (fun (l : List Gen) =>
      l.map (fun g => if g.gen = gen then { g with pages := tset page key g.pages } else g)) s.flc.ckpts }

/-- Data that lay in page `old` lies in page `key`. -/
def State.remap (s : State) (old key : Nat) : State :=
  s.setFlc { s.flc with
    lblocks := s.flc.lblocks.map (fun (e : Nat × LBlock) => if e.2.page = old then (e.1, { e.2 with page := key }) else e)
    ckpts := s.flc.ckpts.map (fun (e : Nat × List Gen) => (e.1, e.2.map (fun g =>
      { g with pages := g.pages.map (fun (q : Nat × Nat) => if q.2 = old then (q.1, key) else q) }))) }

/-- A part of a piece of slot B is programmed: with the last of them the bitmap records the piece (R361). What a staging that
was discarded left behind goes nowhere. -/
def State.storePart (s : State) (no off parts : Nat) (data : Bytes) : State :=
  if no ≠ s.fw.stageNo then s
  else
    let done := (off / pageData) :: s.fw.parts.filter (· != off / pageData)
    let k := off / 65536
    let whole := (List.range parts).all (fun i => done.contains (4 * k + i))
    { s with fw := { s.fw with
        parts := done, bytesB := wrBytes off data s.fw.bytesB
        pieces := if whole ∧ !s.fw.pieces.contains k then k :: s.fw.pieces else s.fw.pieces } }

/-- The region that a staged page goes to. -/
def State.destRegion (s : State) (d : PageDest) : Nat :=
  match d with
  | .user => 0
  | .log _ _ _ => 1
  | .back key => ((tfind s.flc.sblks (pageSb key)).map (·.region)).getD 0
  | .moved key => ((tfind s.flc.sblks (pageSb key)).map (·.region)).getD 0
  | .piece _ _ _ => 2

/-- The stripe block and die whose block a staged page is programmed in. -/
def State.pagePlace (s : State) (x : StagedPage) : Option (State × Nat × Nat) :=
  match x.dest with
  | .back key => some (s, pageSb key, pageDie key)
  | d => (State.nextSlot (s.destRegion d) slotTries s).map (fun (y : State × Nat × SBlock × Nat) => (y.1, y.2.1, y.2.2.2))

/-- A page at a new place of its region; `f` tells the tables. -/
def State.placeNew (s : State) (x : StagedPage) (f : State → Nat → State) : State :=
  match State.nextSlot (s.destRegion x.dest) slotTries s with
  | none => s
  | some (s1, sb, b, d) =>
    let r := s1.storePage sb b d ⟨x.body, x.footer, false⟩
    f r.1 r.2

/-- A staged page programmed and verified. -/
def State.program (s : State) (x : StagedPage) : State :=
  match x.dest with
  | .user => s.placeNew x (fun s key => match x.body with
    | .blocks lbs => s.setFlc { s.flc with lblocks := mapBlocks key lbs s.flc.lblocks }
    | _ => s)
  | .log p gen page => s.placeNew x (fun s key => s.logPage p gen page key)
  | .back key => s.setPage key ⟨x.body, x.footer, false⟩
  | .moved old => s.placeNew x (fun s key => s.remap old key)
  | .piece no off parts => s.placeNew x (fun s _ => match x.body with
    | .bytes d => s.storePart no off parts d
    | _ => s)

end Sys2Proof.Machine
end

