-- ==== Sys2Proof/Machine/FlashOps.lean ====
section
/-! DEFINITION. Tier C as shared operations: keys (R218, R219), checkpoint generations (R232 to R235), the hold-up gate (R237
to R239), the hold-up dump and its replay (R240 to R244), the erasure of a tenant switch (R245). -/

namespace Sys2Proof.Machine

/-! ## Keys (R218, R219) -/

/-- The partition's tier C data key, when its engine may use it (R219, R327). -/
def State.tierCKey (s : State) (p : Nat) : Option Bytes :=
  let k := s.slot (72 + p)
  if k.usable engTierC p then some k.key else none

/-- `n` blocks from `lbn` unmapped (R221). -/
def State.unmap (s : State) (p lbn n : Nat) : State :=
  s.setFlc { s.flc with lblocks := tdelRange (lbKey p lbn) (lbKey p (lbn + n)) s.flc.lblocks }

/-- A removed tier C unit trimmed whole (R222). -/
def State.trimUnit (s : State) (p i : Nat) : State := s.unmap p (i * 2 ^ 23) (2 ^ 23)

/-- The controller serves descriptors: STATE READY or WRITE_PROTECT (R242, R246). -/
def State.flashReady (s : State) : Bool := s.isRun && (s.flc.st == 2 || s.flc.st == 3)

/-! ## Checkpoint generations (R232 to R236) -/

/-- The bytes of an extent list, from tier, address, length. -/
def listBytes (l : List (Nat × Nat × Nat)) : Bytes :=
  l.flatMap (fun (e : Nat × Nat × Nat) => leBytes 8 ((e.1 + 1) * 2 ^ 62 + e.2.1) ++ leBytes 8 e.2.2)

/-- The data pages of a generation: the list page, then the extents' data packed, zero-padded. -/
def genPages (list data : Bytes) : List Bytes := slice list 0 pageData :: piecesOf pageData (padTo pageData data)

/-- A page of a generation on its way to the log, with its footer over what it stores. -/
def logStaged (gen kind p seq page : Nat) (body : PageBody) : StagedPage :=
  ⟨.log p gen page, body, footer seq gen kind p page body.stored⟩

/-- The data pages of a generation as they go to the log. -/
def genData (gen p seq : Nat) (key list data : Bytes) : List StagedPage :=
  (genPages list data).mapIdx (fun i d => logStaged gen 1 p (seq + i) i (.log p (seq + i) key d))

/-- The commit page: DATA_PAGES, the CRC of the footer CRCs of the data pages, and that of the list. It holds no tenant data
and is stored as it is (notes/assumptions/81.md). -/
def genCommit (gen tag count p seq : Nat) (list : Bytes) (pages : List StagedPage) : StagedPage :=
  let d := slice (leBytes 4 gen ++ leBytes 4 tag ++ leBytes 2 count ++ zeros 2 ++ leBytes 4 pages.length
    ++ leBytes 4 (crc32c (pages.flatMap (fun x => x.footer.drop 28))) ++ leBytes 4 (crc32c list)) 0 pageData
  logStaged gen 2 p (seq + pages.length) pages.length (.bytes d)

def State.gens (s : State) (p : Nat) : List Gen := tget [] s.flc.ckpts p

/-- Bytes of a generation in the log, its commit page among them. -/
def Gen.bytes (g : Gen) : Nat := (g.count + 1) * pageData

/-- A page of a generation, programmed, on a die that is still read. -/
def State.genPage (s : State) (g : Gen) (i : Nat) : Option NPage :=
  match tfind g.pages i with
  | none => none
  | some key =>
    match tfind s.flc.pages key with
    | none => none
    | some x => if x.bad ∨ ((s.die (pageDie key)).gone ∧ (s.rebuild key []).isNone) then none else some x

/-- Page `i` of a generation decodes with a valid footer CRC, and its footer names it, in SEQ order from the list page. -/
def State.genPageOk (s : State) (p : Nat) (g : Gen) (kind i : Nat) : Bool :=
  match s.genPage g i with
  | none => false
  | some x => x.valid && x.footer.take 28 == (footer (g.seq + i) g.gen kind p i []).take 28

/-- DATA_PAGES of a generation's commit page. -/
def State.genCount (s : State) (g : Gen) : Option Nat := (s.genPage g g.count).map (fun x => le x.body.stored 12 4)

/-- A generation is complete: its commit page decodes with a valid footer CRC, every data page that the commit page counts
does, and their SEQ values run without a gap (R234). -/
def State.genComplete (s : State) (p : Nat) (g : Gen) : Bool :=
  s.genPageOk p g 2 g.count && s.genCount g == some g.count && (List.range g.count).all (s.genPageOk p g 1)

/-- The log holds 1 GiB for each tier C unit. -/
def PartCfg.logBytes (c : PartCfg) : Nat := c.tierC.length * 2 ^ 30

/-- A generation is being written. -/
def State.genOpen (s : State) (p gen : Nat) : Bool :=
  s.flc.extents.any (fun (e : Nat × Extent) => e.2.pages.any (fun x => match x.dest with
    | .log q g _ => q == p && g == gen
    | _ => false))

/-- The newest complete generation: the one of the last page sequence (R234, R236). -/
def State.newestGen (s : State) (p : Nat) (l : List Gen) : Option Gen :=
  (l.filter (s.genComplete p)).foldl (fun (a : Option Gen) g => match a with
    | some x => if x.seq < g.seq then some g else a
    | none => some g) none

/-- Generations that a new one may not displace: the newest complete one and those being written (R235). -/
def State.genKept (s : State) (p : Nat) (l : List Gen) (g : Gen) : Bool :=
  s.newestGen p l == some g || s.genOpen p g.gen

/-- The log with room for `n` bytes: incomplete generations go, then complete ones oldest first (R235). -/
def reclaim (kept done : Gen → Bool) (room : Nat) : Nat → List Gen → List Gen
  | 0, l => l
  | fuel + 1, l =>
    if (l.map Gen.bytes).sum ≤ room then l
    else match l.find? (fun g => !kept g && !done g) with
      | some g => reclaim kept done room fuel (l.erase g)
      | none =>
        match l.find? (fun g => !kept g) with
        | some g => reclaim kept done room fuel (l.erase g)
        | none => l

/-! ## The gate (R237 to R239) -/

def mib64 : Nat := 67108864

/-- D in units of 64 MiB from twice the energy in nanojoules (R238): E = C x V^2 / 2 with C in mF and V in mV. -/
def budgetOf (twoE : Nat) : Nat := min 32 ((twoE - 140 * 10 ^ 9) * 2400000000 / (2 * 10 ^ 9 * 250 * mib64))

/-- Twice the energy above 16.0 V, in nanojoules. -/
def twoEnergy (c mv : Nat) : Nat := c * (mv * mv - 16000 * 16000)

/-- An extent rewrites a block of TLC. -/
def State.rewrites (s : State) (x : Extent) : Bool :=
  match x.pages with
  | ⟨.back key, _, _⟩ :: _ => ((tfind s.flc.sblks (pageSb key)).map (·.region)).getD 0 == 0
  | _ => false

/-- The bytes of an extent that are dirty, with the lower and middle page of a wordline that it has begun in the block that it
rewrites. -/
def State.extentDirty (s : State) (x : Extent) : Nat :=
  if x.started then (x.size - pageData * x.progs) + (if s.rewrites x then pageData * (x.progs % 3) else 0) else 0

/-- Lower and middle pages of wordlines of an open block whose upper page is not programmed: their page offsets. -/
def heldOffsets (n : Nat) : List Nat := (List.range (n % 3)).map (n / 3 * 3 + ·)

/-- The pages that staging keeps for open wordlines (R237): pages of open TLC blocks. -/
def State.heldPages (s : State) : Tbl NPage :=
  (s.flc.sblks.filter (fun (e : Nat × SBlock) => e.2.region == 0 && e.2.opened)).flatMap (fun (e : Nat × SBlock) =>
    e.2.blks.flatMap (fun (d : Nat × Nat) =>
      (heldOffsets (s.blockPages e.1 d.1).length).filterMap (fun k =>
        (tfind s.flc.pages (pageKey e.1 d.1 k)).map (fun x => (pageKey e.1 d.1 k, x)))))

/-- The dirty amount of R237. -/
def State.dirty (s : State) : Nat :=
  (s.flc.extents.map (fun (e : Nat × Extent) => s.extentDirty e.2)).sum + pageData * s.heldPages.length

/-- D falls below what is admitted: reported once, and nothing is admitted until the dirty amount fits (R239). -/
def State.settleBudget (s : State) : State :=
  let d := s.dirty
  if s.flc.budget * mib64 < d then
    if s.flc.short then s
    else (s.setFlc { s.flc with short := true }).raise srcFlash evFlcBudgetShort 0xFF
      (leBytes 2 s.flc.budget ++ leBytes 2 (ceilDiv d 1048576))
  else s.setFlc { s.flc with short := false }

/-- A list cut into lists of `n`. -/
def cutBy {α : Type} (n : Nat) : Nat → List α → List (List α)
  | 0, _ => []
  | fuel + 1, l => if l.isEmpty then [] else l.take n :: cutBy n fuel (l.drop n)

/-- The pages of logical blocks from `lbn`: four blocks a page (R216). -/
def blockPagesOf (p lbn : Nat) (key : Bytes) (data : Bytes) : List StagedPage :=
  let lbs := (piecesOf lbBytes data).mapIdx (fun j b => (lbKey p (lbn + j), key, b))
  (cutBy 4 lbs.length lbs).map (fun g => ⟨.user, .blocks g, []⟩)

/-- Extents of blocks, at most 16 MiB each. -/
def State.addBlocks (s : State) (op : Option Nat) (p lbn : Nat) (key : Bytes) (data : Bytes) : State :=
  ((piecesOf extentMax data).mapIdx (fun i b => (i, b))).foldl (fun s (e : Nat × Bytes) =>
    s.addExtent op (some p) false e.2.length (blockPagesOf p (lbn + e.1 * (extentMax / lbBytes)) key e.2)) s

/-- Extents of whole pages, at most 16 MiB each. -/
def State.addPages (s : State) (op part : Option Nat) (system : Bool) (pages : List StagedPage) : State :=
  (cutBy (extentMax / pageData) pages.length pages).foldl (fun s g =>
    s.addExtent op part system (g.length * pageData) g) s

/-- The numbers of the logical blocks that a staged page brings. -/
def StagedPage.lbs (x : StagedPage) : List Nat :=
  match x.dest, x.body with
  | .user, .blocks l => l.map (·.1)
  | _, _ => []

/-- The logical blocks that an extent brings and that are not programmed. -/
def Extent.restBlocks (x : Extent) : List Nat := x.pages.flatMap StagedPage.lbs

/-! ## The dump of R240 -/

/-- What of a held page is still a copy that counts: the logical blocks that the mapping tables place there. -/
def State.heldStaged (s : State) (key : Nat) (x : NPage) : Option StagedPage :=
  match x.body with
  | .blocks l =>
    match l.filter (fun (e : Nat × Bytes × Bytes) => (tfind s.flc.lblocks e.1).map (·.page) == some key) with
    | [] => none
    | live => some ⟨.user, .blocks live, []⟩
  | _ => none

/-- Every dirty byte, in the order in which it is dumped: the copies kept for open wordlines, then what started extents have
not programmed (R237, R240). -/
def State.dumpSource (s : State) : List StagedPage :=
  s.heldPages.filterMap (fun (e : Nat × NPage) => s.heldStaged e.1 e.2)
    ++ (s.flc.extents.filter (fun (e : Nat × Extent) => e.2.started)).flatMap (fun (e : Nat × Extent) => e.2.pages)

/-- Bytes that the bank's energy at t0, in joules, carries for certain (R238, R240). -/
def dumpRoom (energy : Nat) : Nat := (energy - 70) * 2400000000 / 250

/-- Dump pages with their SEQ, index and footer. -/
def dumpPages (seq no : Nat) (l : List StagedPage) : List DumpPage :=
  l.mapIdx (fun i x => ⟨seq + i, i, x, footer (seq + i) no 3 0xFF i x.body.stored, false⟩)

/-- The dump at its end (steps 2 to 4). `left` are pages that failed twice, by their place among the dirty pages; `count` is how
many the bank let the module program: all of them from main power and within the energy of t0. -/
def State.runDump (s : State) (left : List Nat) (count : Nat) : State :=
  let todo := s.dumpSource
  let room := match s.pwr.dump with
    | some d => if d.fromBank then dumpRoom d.energy / pageData else todo.length
    | none => todo.length
  let n := max room (min count todo.length)
  let kept := (((todo.mapIdx (fun i x => (i, x))).take n).filter (fun (e : Nat × StagedPage) => !left.contains e.1)).map (·.2)
  let pages := dumpPages s.flc.dumpSeq s.flc.dumpNo kept
  s.setFlc { s.flc with
    dump := pages, dumpList := if todo.length ≤ n then some (kept.map (·.dest)) else none
    dumpSeq := s.flc.dumpSeq + pages.length + 1, dumpNo := s.flc.dumpNo + 1 }

/-! ## Replay and examination at boot (R242 to R244) -/

/-- A dump page decodes with a valid footer. -/
def DumpPage.valid (x : DumpPage) : Bool := !x.bad && footerCrcOk x.staged.body.stored x.footer

/-- The pages from the first whose SEQ runs without a gap. -/
def dumpRun : Nat → List DumpPage → List DumpPage
  | _, [] => []
  | seq, x :: xs => if x.valid && x.seq == seq then x :: dumpRun (seq + 1) xs else []

/-- The pages that are replayed: with a commit page every valid one, without it those that run without a gap (R242). -/
def Flash.replay (f : Flash) : List DumpPage :=
  match f.dumpList, f.dump with
  | some _, l => l.filter DumpPage.valid
  | none, [] => []
  | none, x :: xs => dumpRun x.seq (x :: xs)

/-- One torn page (R243): a TLC page is rebuilt where its stripe allows it; else it no longer decodes, and the logical blocks
whose copy it holds are TORN. -/
def State.tearPage (bad : List Nat) (s : State) (key : Nat) : State :=
  match tfind s.flc.pages key, tfind s.flc.sblks (pageSb key) with
  | some x, some b =>
    match (if b.region = 0 then s.rebuild key bad else none) with
    | some d => s.setPage key { x with body := .bytes d, bad := false }
    | none =>
      let s1 := s.setPage key { x with bad := true }
      s1.setFlc { s1.flc with
        lblocks := s1.flc.lblocks.map (fun (e : Nat × LBlock) => if e.2.page = key then (e.1, { e.2 with torn := true }) else e) }
  | _, _ => s

/-- The TORN blocks of the boot counted and reported. -/
def State.countTorn (s : State) : State :=
  let n := (s.flc.lblocks.filter (fun (e : Nat × LBlock) => e.2.torn)).length
  let s1 := s.setFlc { s.flc with torn := min n 0xFFFFFF }
  if n = 0 then s1 else (s1.count none cntFlcTorn n).raise srcFlash evFlcTorn 0xFF (leBytes 4 n)

/-- The blocks that the mapping tables record as open at the power loss: they take no more pages. -/
def State.closeBlocks (s : State) : State :=
  s.setFlc { s.flc with sblks := s.flc.sblks.map (fun (e : Nat × SBlock) => (e.1, { e.2 with opened := false })) }

/-- Replay and examination at boot: the controller is READY, or WRITE_PROTECT where it was recorded. `bad` are the pages of
open blocks that fail their examination, `dumpBad` the dump pages that do not decode, by index. -/
def State.flashBoot (s : State) (bad dumpBad : List Nat) : State :=
  let open_ := (s.flc.sblks.filter (fun (e : Nat × SBlock) => e.2.opened)).map (·.1)
  let s0 := s.closeBlocks
  let s1 := s0.setFlc { s0.flc with
    dump := s0.flc.dump.map (fun x => if dumpBad.contains x.idx then { x with bad := true } else x) }
  let pages := s1.flc.replay
  let s2 := pages.foldl (fun s x => s.program x.staged) s1
  let s3 := if s2.flc.dumpList.isSome then s2
    else (s2.setFlc { s2.flc with dumpInc := true }).raise srcFlash evFlcDumpIncomplete 0xFF (leBytes 4 pages.length)
  let torn := (bad.filter (fun k => open_.contains (pageSb k))).eraseDups
  let s4 := (torn.foldl (State.tearPage torn) s3).countTorn
  s4.setFlc { s4.flc with dump := [], dumpList := some [], st := if s4.flc.wp then 3 else 2 }

/-! ## Crypto-erase (R245) -/

/-- Tenant switch: media keys, maps, logs and dump area go, every block of the user and checkpoint regions is free and waits for
its erasure; spare accounting, WRITE_PROTECT, page sequences and the system region stay. -/
def State.eraseTierC (s : State) : State :=
  let mine := s.flc.sblks.filter (fun (e : Nat × SBlock) => e.2.region != 2)
  let blks := mine.flatMap (fun (e : Nat × SBlock) => e.2.blks.map (fun (x : Nat × Nat) => blkKey x.1 x.2))
  let waiting := blks.filter (fun k => !s.flc.freeBlks.contains k && !s.flc.badBlks.contains k)
  let sys := fun (x : Extent) => x.pages.all (fun y => s.destRegion y.dest == 2)
  let s1 := s.setFlc { s.flc with
    lblocks := [], media := [], ckpts := [], nextGen := [], dump := [], dumpList := some []
    sblks := s.flc.sblks.filter (fun (e : Nat × SBlock) => e.2.region == 2)
    pages := s.flc.pages.filter (fun (e : Nat × NPage) => !mine.any (fun (b : Nat × SBlock) => b.1 == pageSb e.1))
    freeBlks := waiting ++ s.flc.freeBlks
    st := 4 }
  s1.dropExtents (fun x => !sys x)

/-! ## Media keys (R218) -/

/-- The tier C data key of partition `p` from a tenant tier C key and the partition's media key, unwrapped under slot 4. -/
def State.deriveData (s : State) (p : Nat) (k : KeySlot) : State :=
  match (tfind s.flc.media p).bind (keyUnwrap3394 (s.slot 4).key) with
  | none => s
  | some m => s.setSlot (72 + p) ⟨true, Config.tierCKdf k.key m, 2, k.life, k.meas, true, false, p, 2 ^ engTierC, k.sid⟩

/-- The data keys that a tenant tier C key makes. -/
def State.deriveTierC (s : State) (k : KeySlot) : State :=
  (s.flc.media.filter (fun (e : Nat × Bytes) => k.anyPart || e.1 == k.part)).foldl (fun s (e : Nat × Bytes) => s.deriveData e.1 k) s

/-- A tenant tier C key that serves partition `p`. -/
def State.tenantTierC (s : State) (p : Nat) : Option KeySlot :=
  (s.sec.slots.find? (fun (e : Nat × KeySlot) => decide (168 ≤ e.1) && e.2.valid && bit e.2.engine engTierC
    && (e.2.anyPart || e.2.part == p))).map (·.2)

/-- The media key of a partition, made when it first holds tier C units and stored only wrapped under the media wrap key
(R218, R326; notes/assumptions/81.md); with a tenant's tier C key held it gives the data key. -/
def State.newMedia (s : State) (p : Nat) : State :=
  let s1 := if (s.cfg p).tierC.isEmpty ∨ (tfind s.flc.media p).isSome then s
    else
      let k := s.condBytes 32
      k.2.setFlc { k.2.flc with media := tset p (keyWrap3394 (k.2.slot 4).key k.1) k.2.flc.media }
  match (s1.slot (72 + p)).valid, s1.tenantTierC p with
  | false, some k => s1.deriveData p k
  | _, _ => s1

end Sys2Proof.Machine
end

