-- ==== Sys2Proof/Machine/Flash.lean ====
section
/-! DEFINITION. The commands of tier C (spec/10_flash_and_holdup.md) and of the hold-up bank (R385). -/

namespace Sys2Proof.Machine

/-! ## Checks (R219, R224) -/

/-- TC_ADDR and LENGTH of R220. -/
def tcAligned (a n : Nat) : Bool := a % lbBytes == 0 && n % lbBytes == 0 && decide (lbBytes ≤ n) && decide (n ≤ 2 ^ 34)

/-- Reserved fields of FLASH_READ and FLASH_WRITE, and the form of OTHER. -/
def flashFields (d : Bytes) : Bool :=
  decide (byteAt d 8 < 2) && zeroAt d 9 7 && zeroAt d 40 24 && (byteAt d 8 == 1 || (addrAt d 24).plain)

/-- The status of a FLASH_READ (`write` false) or FLASH_WRITE: the key of R219, then the rows of R224. -/
def State.flashStatus (s : State) (p : Nat) (write : Bool) (d : Bytes) : Nat :=
  let a := le d 16 8
  let n := le d 32 8
  let o := addrAt d 24
  let host := byteAt d 8 == 1
  if (s.tierCKey p).isNone then stFlcNoKey
  else if !tcAligned a n then stFlcAlign
  else if !flashFields d then stFlcField
  else if (s.cfg p).tierCBytes < a + n ∨ (!host ∧ !s.inUnits p o.tier o.addr n) then stFlcSpace
  else if write ∧ s.flc.wp then stFlcWriteProtect
  else if host then stOk
  else if (if write then s.aggLockedRead p o.tier o.addr n else s.aggLocked p o.tier o.addr n) then stAggLocked
  else if s.gruLocked p o.tier o.addr n then stGruLocked
  else stOk

/-- An earlier FLASH_WRITE or FLASH_TRIM of the ring has not started (R221). -/
def State.flashBehind (s : State) (op : Nat) (o : Op) : Bool :=
  s.ops.any (fun (e : Nat × Op) => decide (e.1 < op) && e.2.fn == o.fn && e.2.phase == .ready
    && (e.2.opcode == 0x61 || e.2.opcode == 0x62))

/-! ## FLASH_READ (R220, R221, R228, R243) -/

/-- One block of a read: bytes and statuses so far. -/
def readBlock (p : Nat) (key : Bytes) (errs : List (Nat × FlashErr)) (acc : State × Bytes × List Nat) (lbn : Nat) :
    State × Bytes × List Nat :=
  let s := acc.1
  match s.lblock p lbn with
  | none => (s, acc.2.1 ++ zeros lbBytes, acc.2.2 ++ [stOk])
  | some b =>
    if b.lost then (s, acc.2.1 ++ zeros lbBytes, acc.2.2 ++ [stFlcUncorrectable])
    else if b.torn then (s, acc.2.1 ++ zeros lbBytes, acc.2.2 ++ [stFlcTorn])
    else
      let r := State.readCode errs (some p) s b.page b.idx
      let data := match tfind r.1.flc.pages b.page with
        | some x => if r.2 = stFlcUncorrectable then zeros lbBytes else slice (x.body.plain (lbKey p lbn) b.idx key) 0 lbBytes
        | none => zeros lbBytes
      (r.1, acc.2.1 ++ data, acc.2.2 ++ [r.2])

/-- DETAIL of a FLASH_READ (R259): TC_ADDR of the first lost or TORN block, from the status of each block. -/
def readDetail (addr status : Nat) (sts : List Nat) : Bytes :=
  if status = stFlcUncorrectable ∨ status = stFlcTorn then
    leBytes 8 (addr + lbBytes * sts.findIdx (fun x => x == stFlcUncorrectable || x == stFlcTorn))
  else []

/-- FLASH_READ: `errs` names what codewords meet. -/
def execFlashRead (op : Nat) (errs : List (Nat × FlashErr)) (s : State) : Res :=
  .next (onReady 0x60 op s (fun o =>
    if !s.flashReady then s
    else
      let p := o.fn - 1
      let d := o.bytes
      let st := s.flashStatus p false d
      let host := byteAt d 8 == 1
      if st ≠ stOk then s.finish op st
      else if host ∧ !s.reachable o.fn then s.finish op stHifHostUnreachable
      else
        let key := (s.tierCKey p).getD []
        let r := (List.range (le d 32 8 / lbBytes)).foldl
          (fun acc i => readBlock p key errs acc (le d 16 8 / lbBytes + i)) (s, [], [])
        if host then
          (r.1.put (.hostWrite o.fn (le d 24 8) r.2.1)).finish op (mergeStatus r.2.2)
            (readDetail (le d 16 8) (mergeStatus r.2.2) r.2.2)
        else
          let w := r.1.memWrite p (addrAt d 24).tier (addrAt d 24).addr r.2.1
          let end0 := mergeStatus (r.2.2 ++ [w.2.status])
          w.1.finish op end0 (readDetail (le d 16 8) end0 r.2.2)))

/-! ## FLASH_WRITE, FLASH_TRIM -/

/-- A source range read for tier C: the bytes of lines that could not be read are open (R200 states none). -/
def State.flashSource (s : State) (p tier a n : Nat) : State × Bytes × Nat :=
  let r := s.memRead p tier a n
  if r.2.good then (r.1, r.2.data, r.2.status)
  else
    let f := r.1.freeBytes n
    (f.2, (List.range n).map (fun i =>
      if r.1.poisoned tier (r.1.phys p tier (a + i)) then f.1.getD i 0 else r.2.data.getD i 0), r.2.status)

/-- FLASH_WRITE: its data goes to staging as extents that wait at the gate. `data` is what host memory returns. -/
def execFlashWrite (op : Nat) (data : Bytes) (errs : List LineErr) (s0 : State) : Res :=
  .next (let s := s0.arise errs
    onReady 0x61 op s (fun o =>
    if !s.flashReady ∨ s.flashBehind op o then s
    else
      let p := o.fn - 1
      let d := o.bytes
      let n := le d 32 8
      let st := s.flashStatus p true d
      let host := byteAt d 8 == 1
      if st ≠ stOk then s.finish op st
      else if host ∧ !s.reachable o.fn then s.finish op stHifHostUnreachable
      else
        let r := if host then (s, slice data 0 n, stOk) else s.flashSource p (addrAt d 24).tier (addrAt d 24).addr n
        let s1 := r.1.setOp op { o with phase := .running, status := r.2.2 }
        s1.addBlocks (some op) p (le d 16 8 / lbBytes) ((s.tierCKey p).getD []) r.2.1))

/-- A block of the range waits in an extent. -/
def State.blocksBusy (s : State) (p lbn n : Nat) : Bool :=
  s.flc.extents.any (fun (e : Nat × Extent) => e.2.part == some p
    && e.2.restBlocks.any (fun b => decide (lbKey p lbn ≤ b) && decide (b < lbKey p (lbn + n))))

/-- The status of a FLASH_TRIM. -/
def State.trimStatus (s : State) (p : Nat) (d : Bytes) : Nat :=
  if (s.tierCKey p).isNone then stFlcNoKey
  else if !tcAligned (le d 16 8) (le d 32 8) then stFlcAlign
  else if !zeroAt d 8 8 ∨ !zeroAt d 24 8 ∨ !zeroAt d 40 24 then stFlcField
  else if (s.cfg p).tierCBytes < le d 16 8 + le d 32 8 then stFlcSpace
  else if s.flc.wp then stFlcWriteProtect
  else stOk

/-- FLASH_TRIM: after the writes before it, the blocks are unmapped. -/
def execFlashTrim (op : Nat) (s : State) : Res :=
  .next (onReady 0x62 op s (fun o =>
    if !s.flashReady ∨ s.flashBehind op o then s
    else
      let p := o.fn - 1
      let lbn := le o.bytes 16 8 / lbBytes
      let n := le o.bytes 32 8 / lbBytes
      let st := s.trimStatus p o.bytes
      if st ≠ stOk then s.finish op st
      else if s.blocksBusy p lbn n then s
      else (s.unmap p lbn n).finish op stOk))

/-! ## CHECKPOINT, CKPT_RESTORE (R232 to R236) -/

/-- The extents of a list: address word and length. -/
def extentsOf (list : Bytes) (count : Nat) : List (AddrWord × Nat) :=
  (List.range count).map (fun i => (addrAt list (16 * i), le list (16 * i + 8) 8))

/-- R232 for one extent. -/
def extentOk (e : AddrWord × Nat) : Bool := e.1.plain && e.1.addr % 64 == 0 && e.2 != 0 && e.2 % 64 == 0

/-- The status of a CHECKPOINT before its list is read. -/
def State.ckptStatus (s : State) (p : Nat) (d : Bytes) : Nat :=
  if (s.tierCKey p).isNone then stFlcNoKey
  else if !zeroAt d 8 8 ∨ !zeroAt d 26 2 ∨ !zeroAt d 32 32 ∨ le d 24 2 = 0 ∨ 1024 < le d 24 2 then stFlcField
  else stOk

/-- The status of the extents: R232, R224, and the locks. -/
def State.listStatus (s : State) (p : Nat) (l : List (AddrWord × Nat)) : Nat :=
  if !l.all extentOk then stFlcField
  else if !l.all (fun (e : AddrWord × Nat) => s.inUnits p e.1.tier e.1.addr e.2) then stFlcSpace
  else if s.flc.wp then stFlcWriteProtect
  else if l.any (fun (e : AddrWord × Nat) => s.aggLockedRead p e.1.tier e.1.addr e.2) then stAggLocked
  else if l.any (fun (e : AddrWord × Nat) => s.gruLocked p e.1.tier e.1.addr e.2) then stGruLocked
  else stOk

/-- The bytes of every extent, in list order. -/
def State.captureList (p : Nat) : List (AddrWord × Nat) → State → State × Bytes × List Nat
  | [], s => (s, [], [])
  | e :: es, s =>
    let r := s.flashSource p e.1.tier e.1.addr e.2
    let q := State.captureList p es r.1
    (q.1, r.2.1 ++ q.2.1, r.2.2 :: q.2.2)

/-- A generation begun: its data is captured, its pages have their places in the page sequence and wait at the gate. -/
def State.openGen (s : State) (op p tag : Nat) (l : List (AddrWord × Nat)) (data : Bytes) (sts : List Nat) (o : Op) : State :=
  let gen := tget 1 s.flc.nextGen p
  let seq := tget 0 s.flc.ckptSeq p
  let list := l.map (fun (e : AddrWord × Nat) => (e.1.tier, e.1.addr, e.2))
  let key := (s.tierCKey p).getD []
  let pages := genData gen p seq key (listBytes list) data
  let g : Gen := ⟨gen, tag, list, key, seq, pages.length, []⟩
  let kept := fun (x : Gen) => s.genKept p (s.gens p) x
  let held := (((s.gens p).filter kept).map Gen.bytes).sum
  let room := (s.cfg p).logBytes
  if room < held + g.bytes then s.finish op stFlcCkptSpace
  else
    let old := reclaim kept (s.genComplete p) (room - g.bytes) ((s.gens p).length + 1) (s.gens p)
    let s1 := s.setFlc { s.flc with
      ckpts := tset p (old ++ [g]) s.flc.ckpts
      nextGen := tset p ((gen + 1) % 2 ^ 32) s.flc.nextGen
      ckptSeq := tset p (seq + pages.length + 1) s.flc.ckptSeq }
    (s1.setOp op { o with phase := .running, status := mergeStatus sts, detail := leBytes 4 gen }).addPages (some op) (some p)
      false (pages ++ [genCommit gen tag l.length p seq (listBytes list) pages])

/-- CHECKPOINT: `list` is the extent list in host memory. -/
def execCheckpoint (op : Nat) (list : Bytes) (errs : List LineErr) (s0 : State) : Res :=
  .next (let s := s0.arise errs
    onReady 0x63 op s (fun o =>
    if !s.flashReady then s
    else
      let p := o.fn - 1
      let d := o.bytes
      let st := s.ckptStatus p d
      if st ≠ stOk then s.finish op st
      else if !s.reachable o.fn then s.finish op stHifHostUnreachable
      else
        let l := extentsOf list (le d 24 2)
        let st2 := s.listStatus p l
        if st2 ≠ stOk then s.finish op st2
        else
          let r := State.captureList p l s
          r.1.openGen op p (le d 28 4) l r.2.1 r.2.2 o))

/-- The generation that CKPT_RESTORE names. -/
def State.findGen (s : State) (p n : Nat) : Option Gen :=
  if n = 0 then s.newestGen p (s.gens p) else (s.gens p).find? (fun g => g.gen == n && s.genComplete p g)

/-- The reads of the pages of the partition's generations that `errs` makes fail, and their statuses. A page that cannot be
rebuilt leaves its generation incomplete (R216, R234). -/
def State.readLog (s : State) (p : Nat) (errs : List (Nat × FlashErr)) : State × List Nat :=
  let mine := fun (k : Nat) => (s.gens p).any (fun g => g.pages.any (fun (q : Nat × Nat) => q.2 == k))
  (errs.filter (fun e => mine (e.1 / 4))).foldl (fun (acc : State × List Nat) e =>
    let r := State.readCode errs (some p) acc.1 (e.1 / 4) (e.1 % 4)
    (r.1, if r.2 = stFlcUncorrectable then acc.2 else acc.2 ++ [r.2])) (s, [])

/-- The data of a generation under the data key of now, packed in list order. -/
def State.genBytes (s : State) (p : Nat) (g : Gen) (key : Bytes) : Bytes :=
  (List.range (g.count - 1)).flatMap (fun i => match s.genPage g (i + 1) with
    | some x => x.body.plainLog p (g.seq + i + 1) key
    | none => zeros pageData)

/-- Extents written back from the data packed in list order, and what the writes met. -/
def State.restoreList (p : Nat) : List (Nat × Nat × Nat) → Bytes → State → State × List Nat
  | [], _, s => (s, [])
  | e :: es, data, s =>
    let w := s.memWrite p e.1 e.2.1 (slice data 0 e.2.2)
    let r := State.restoreList p es (data.drop e.2.2) w.1
    (r.1, w.2.status :: r.2)

/-- CKPT_RESTORE: `errs` names what codewords of the log meet. -/
def execCkptRestore (op : Nat) (errs : List (Nat × FlashErr)) (s : State) : Res :=
  .next (onReady 0x64 op s (fun o =>
    if !s.flashReady then s
    else
      let p := o.fn - 1
      let d := o.bytes
      match s.tierCKey p with
      | none => s.finish op stFlcNoKey
      | some key =>
        if !zeroAt d 8 20 ∨ !zeroAt d 32 32 then s.finish op stFlcField
        else
          let m := s.readLog p errs
          match m.1.findGen p (le d 28 4) with
          | none => m.1.finish op stFlcNoCkpt
          | some g =>
            if !g.extents.all (fun (e : Nat × Nat × Nat) => s.inUnits p e.1 e.2.1 e.2.2) then m.1.finish op stFlcSpace
            else if g.extents.any (fun (e : Nat × Nat × Nat) => s.aggLocked p e.1 e.2.1 e.2.2) then m.1.finish op stAggLocked
            else if g.extents.any (fun (e : Nat × Nat × Nat) => s.gruLocked p e.1 e.2.1 e.2.2) then m.1.finish op stGruLocked
            else
              let w := State.restoreList p g.extents (m.1.genBytes p g key) m.1
              w.1.finish op (mergeStatus (m.2 ++ w.2)) (leBytes 4 g.gen)))

/-! ## The gate -/

/-- The next extent starts when dirty plus its size fits D (R239). -/
def execGateExtentAdmit (s : State) : Res :=
  .next (match s.flc.nextExtent with
    | none => s
    | some (i, x) =>
      if s.isRun ∧ !s.flc.short ∧ s.dirty + x.size ≤ s.flc.budget * mib64 then
        ((s.setFlc { s.flc with extents := tset i { x with started := true } s.flc.extents }).settleWait).settleBudget
      else s)

/-- An earlier extent still holds a block that this page would write (R221). -/
def State.pageBehind (s : State) (i : Nat) (x : Extent) : Bool :=
  match x.pages with
  | [] => false
  | y :: _ => s.flc.extents.any (fun (e : Nat × Extent) => decide (e.1 < i) && e.2.restBlocks.any y.lbs.contains)

/-- The descriptor of an extent that has ended, when it was its last. -/
def State.endWrite (s : State) (x : Extent) : State :=
  match x.op with
  | none => s
  | some op =>
    if s.flc.extents.any (fun (e : Nat × Extent) => e.2.op == some op) then s
    else match s.op op with
      | some o => if o.phase = .running then s.finish op o.status o.detail else s
      | none => s

/-- The status of a page program joins its descriptor's. -/
def State.noteWrite (s : State) (x : Extent) (st : Nat) : State :=
  match x.op.bind s.op, x.op with
  | some o, some op => if o.phase = .running then s.setOp op { o with status := mergeStatus [o.status, st] } else s
  | _, _ => s

/-- A page whose program failed at its retry: its block is a grown defect, or its die is gone; the page is programmed again
from staging (R227, R229). -/
def State.pageFailed (s : State) (x : Extent) (y : StagedPage) (gone : Bool) : State :=
  match s.pagePlace y with
  | none => s
  | some (s1, sb, d) =>
    let s2 := s1.countError x.part cntLasting
    (if gone then s2.loseDie d else s2.growDefect sb d).noteWrite x stLastingFlash

/-- The next page of a started extent: programmed and verified at once or at its retry, or to be programmed again (R226, R227,
R237). The descriptor of the extent's last page completes with `last`. -/
def State.pageDone (s : State) (i : Nat) (x : Extent) (res : ProgramEnd) (last : State → State) : State :=
  match x.pages with
  | [] => s
  | y :: rest =>
    match res with
    | .grown => (s.pageFailed x y false).settleBudget
    | .dieGone => (s.pageFailed x y true).settleBudget
    | _ =>
      if (s.pagePlace y).isNone then s
      else
        let s0 := if res = .transient then (s.countError x.part cntTransient).noteWrite x stTransientFlash else s
        let s1 := s0.program y
        let x1 := { x with pages := rest, progs := x.progs + 1 }
        match rest with
        | [] => ((last (s1.setFlc { s1.flc with extents := tdel i s1.flc.extents })).endWrite x).settleBudget
        | _ => (s1.setFlc { s1.flc with extents := tset i x1 s1.flc.extents }).settleBudget

/-! ## Patrol, wear, erasure -/

/-- The patrol's read of page `page` of a block; `errs` names what its codewords meet. -/
def execFlashPatrolTick (die block page : Nat) (errs : List (Nat × FlashErr)) (s : State) : Res :=
  .next (if !s.flashReady then s
    else match s.blockAt die block with
      | none => s
      | some (sb, b) =>
        let key := pageKey sb die page
        if dieCount ≤ die ∨ b.pagesPer ≤ page ∨ (tfind s.flc.pages key).isNone then s
        else (List.range 4).foldl (fun s i =>
          let own := (s.flc.lblocks.find? (fun (e : Nat × LBlock) => e.2.page == key && e.2.idx == i)).map (fun e => e.1 / 2 ^ 36)
          if errs.any (fun (e : Nat × FlashErr) => e.1 == 4 * key + i) then (State.readCode errs own s key i).1 else s) s)

/-- Erase counts of a die, summed. -/
def State.eraseSum (s : State) (d : Nat) : Nat :=
  ((s.flc.erases.filter (fun (e : Nat × Nat) => e.1 / 65536 == d)).map (·.2)).sum

/-- A wear move: a block holding data, 500 or more erasures below the mean of its die, returns to use (R225). -/
def execWearMove (die block : Nat) (s : State) : Res :=
  .next (match s.blockAt die block with
    | none => s
    | some (sb, b) =>
      if s.flashReady ∧ !b.opened ∧ s.blockHolds sb b ∧ !s.flc.badBlks.contains (blkKey die block)
          ∧ (tget 0 s.flc.erases (blkKey die block) + 500) * s.dieBlocks ≤ s.eraseSum die then s.recycle sb die
      else s)

/-- A block that can be erased: it waits for that and nothing that was read from it is still to be programmed, or it is one of
a stripe block that holds no data any more. -/
def State.erasable (s : State) (d blk : Nat) : Bool :=
  match s.blockAt d blk with
  | some (sb, b) => !s.blockHolds sb b
  | none => s.flc.freeBlks.contains (blkKey d blk)
      && !s.flc.extents.any (fun (e : Nat × Extent) => e.2.pages.any (fun x => match x.dest with
        | .back key => pageDie key == d
        | _ => false))

/-- Block `blk` leaves its stripe block, which goes with its last block. -/
def State.leaveStripes (s : State) (d blk : Nat) : State :=
  match s.blockAt d blk with
  | none => s
  | some (sb, b) =>
    let rest := tdel d b.blks
    s.setFlc { s.flc with
      pages := s.flc.pages.filter (fun (e : Nat × NPage) => !(pageSb e.1 == sb && pageDie e.1 == d))
      sblks := if rest.isEmpty then tdel sb s.flc.sblks else tset sb { b with blks := rest } s.flc.sblks }

/-- A freed block is erased (R225); one that fails its retry is a grown defect, without data to move (R227). -/
def execFlashEraseDone (die block : Nat) (res : ProgramEnd) (s : State) : Res :=
  .next (let k := blkKey die block
    if !s.isRun ∨ !s.erasable die block then s
    else
      let left := s.leaveStripes die block
      let free := fun (s : State) => s.setFlc { s.flc with freeBlks := s.flc.freeBlks.filter (· != k) }
      let erased := fun (s : State) => (free s).setFlc { (free s).flc with erases := tset k (tget 0 s.flc.erases k + 1) s.flc.erases }
      match res with
      | .ok => erased left
      | .transient => erased (left.countError none cntTransient)
      | .grown =>
        let s1 := free (left.countError none cntLasting)
        let x := s1.die die
        let s2 := s1.setFlc { s1.flc with
          badBlks := k :: s1.flc.badBlks, dies := tset die { x with spares := x.spares - 1 } s1.flc.dies }
        ((s2.raise srcFlash evFlcGrownDefect 0xFF (leBytes 1 die ++ leBytes 4 block)).countMod cntFlcRetired).settleSpares die
      | .dieGone => (left.countError none cntLasting).loseDie die)

/-! ## The bank (R238, R384, R385) -/

/-- PWR_STAT.BANK (R385). -/
def State.bankCode (s : State) : Nat :=
  if s.pwr.cMeas < 156 ∨ !s.pwr.charger then 3
  else if s.pwr.cMeas < 250 then 2
  else if budgetOf (twoEnergy s.pwr.cMeas s.pwr.bankMv) = 32 then 0 else 1

def State.settleBank (s : State) : State := { s with pwr := { s.pwr with bank := s.bankCode } }

/-- The measurement of every millisecond: BANK, and while the flash controller is powered the energy and budget that its gate
and FLC_BUDGET show; ENERGY holds 9 bits (notes/assumptions/81.md). -/
def execHoldupEnergyMeasure (millivolts : Nat) (s : State) : Res :=
  .next (let e := twoEnergy s.pwr.cMeas millivolts
    let s1 := { s with pwr := { s.pwr with bankMv := millivolts } }.settleBank
    if s.isRun then
      (s1.setFlc { s1.flc with energy := min 511 (e / (2 * 10 ^ 9)), budget := budgetOf e }).settleBudget
    else s1)

/-- The discharge test begins: the charger stops. -/
def execBankCapacitanceTest (s : State) : Res :=
  .next (if s.pwr.phase = .run ∨ s.pwr.phase = .sequence then { s with pwr := { s.pwr with testing := true } } else s)

/-- The test ends with the measured capacitance. -/
def execBankTestDone (millifarads : Nat) (s : State) : Res :=
  .next (if s.pwr.testing then
      let s1 := { s with pwr := { s.pwr with testing := false, cMeas := millifarads } }.settleBank
      if millifarads < 156 then s1.raise srcPower evPwrBankFault 0xFF (leBytes 2 millifarads)
      else if millifarads < 250 then s1.raise srcPower evPwrBankDegraded 0xFF (leBytes 2 millifarads)
      else s1
    else s)

/-- The charger fails: BANK reads FAULT. -/
def execChargerFault (s : State) : Res :=
  .next (if s.pwr.charger then
      ({ s with pwr := { s.pwr with charger := false } }.settleBank).raise srcPower evPwrBankFault 0xFF (leBytes 2 s.pwr.cMeas)
    else s)

end Sys2Proof.Machine
end

