-- ==== Sys2Proof/Machine/Tfhe.lean ====
section
/-! DEFINITION. The arithmetic of a bootstrap (R165 to R174): parameter sets, ciphertexts modulo 2^32, polynomials modulo
X^N + 1 and q, the external product, the blind rotation, sample extraction, modulus switch and key switch. -/

namespace Sys2Proof.Machine

/-! ## Parameter sets (R167, R176, R177) -/

/-- A row of R167 with its cycle count of R177 and its largest batch of R176. -/
structure GruSet where
  n      : Nat
  deg    : Nat
  levels : Nat
  bgLog  : Nat
  ct     : Nat
  bk     : Nat
  ksk    : Nat
  total  : Nat
  cycles : Nat
  batch  : Nat
deriving DecidableEq, Repr

def grA : GruSet := ⟨636, 1024, 3, 7, 2560, 62521344, 10485760, 74317824, 12800, 512⟩
def grB : GruSet := ⟨742, 2048, 3, 8, 3008, 145883136, 24641536, 172064768, 32728, 256⟩
def grC : GruSet := ⟨1024, 2048, 4, 7, 4160, 268435456, 34078720, 304644096, 56400, 256⟩

/-- The set that a PARAM names. -/
def gruSet (param : Nat) : Option GruSet :=
  match param with
  | 1 => some grA
  | 2 => some grB
  | 3 => some grC
  | _ => none

/-! ## Ciphertexts (R165, R166): n words a, then b -/

abbrev Lwe := List Nat

def w32 (x : Nat) : Nat := x % 2 ^ 32

def negW (x : Nat) : Nat := w32 (2 ^ 32 - w32 x)

def lweAdd (x y : Lwe) : Lwe := List.zipWith (fun a b => w32 (a + b)) x y

def lweNeg (x : Lwe) : Lwe := x.map negW

/-- `off` added to b. -/
def lweOff (off : Nat) (x : Lwe) : Lwe := modAt (x.length - 1) (fun b => w32 (b + off)) x

/-- The trivial ciphertext of a constant. -/
def lweConst (n : Nat) (c : Bool) : Lwe := List.replicate n 0 ++ [if c then 0x20000000 else 0xE0000000]

/-- The words of a stored ciphertext; the padding is ignored. -/
def lweOf (n : Nat) (bs : Bytes) : Lwe := (List.range (n + 1)).map (fun j => le bs (4 * j) 4)

/-- A ciphertext as it is stored, its padding zero. -/
def lweBytes (ct : Nat) (x : Lwe) : Bytes := slice (x.flatMap (leBytes 4)) 0 ct

/-! ## Gates (R171) -/

/-- The linear step of gate code `g`, from A and B; MUX takes the first of its two here (R171). -/
def gateLinear (g : Nat) (a b : Lwe) : Lwe :=
  match g with
  | 0x0 => lweNeg a
  | 0x3 => lweOff 0xE0000000 (lweAdd a b)
  | 0x4 => lweOff 0x20000000 (lweAdd (lweNeg a) (lweNeg b))
  | 0x5 => lweOff 0x20000000 (lweAdd a b)
  | 0x6 => lweOff 0xE0000000 (lweAdd (lweNeg a) (lweNeg b))
  | 0x7 => lweOff 0x40000000 (lweAdd (lweAdd a a) (lweAdd b b))
  | 0x8 => lweOff 0xC0000000 (lweNeg (lweAdd (lweAdd a a) (lweAdd b b)))
  | 0x9 => lweOff 0xE0000000 (lweAdd (lweNeg a) b)
  | 0xA => lweOff 0xE0000000 (lweAdd a (lweNeg b))
  | 0xB => lweOff 0x20000000 (lweAdd (lweNeg a) b)
  | 0xC => lweOff 0x20000000 (lweAdd a (lweNeg b))
  | _ => a

/-- Bootstraps of a gate, which are its slots (R171, R176). -/
def gateCost (g : Nat) : Nat := if g ≤ 2 then 0 else if g = 0xD then 2 else 1

/-! ## The ring modulo q (R167, R174) -/

def qMod : Nat := 2 ^ 64 - 2 ^ 32 + 1

def qAdd (a b : Nat) : Nat := (a + b) % qMod

def qNeg (a : Nat) : Nat := (qMod - a % qMod) % qMod

def polyAdd (x y : List Nat) : List Nat := List.zipWith qAdd x y

def polyNeg (x : List Nat) : List Nat := x.map qNeg

/-- X^e times `x` modulo X^N + 1, for e below 2N. -/
def polyRot (e : Nat) (x : List Nat) : List Nat :=
  let n := x.length
  let r := e % n
  let y := polyNeg (x.drop (n - r)) ++ x.take (n - r)
  if (e / n) % 2 = 1 then polyNeg y else y

/-- The exact negacyclic product. -/
def polyMul (x y : List Nat) : List Nat :=
  (x.zip (List.range x.length)).foldl (fun acc e => polyAdd acc ((polyRot e.2 y).map (fun c => e.1 * c % qMod)))
    (List.replicate y.length 0)

/-- An RLWE sample: polynomials a and b, a first (notes/assumptions/44.md). -/
abbrev Rlwe := List Nat × List Nat

def rlweAdd (x y : Rlwe) : Rlwe := (polyAdd x.1 y.1, polyAdd x.2 y.2)

def rlweRot (e : Nat) (x : Rlwe) : Rlwe := (polyRot e x.1, polyRot e x.2)

/-- `x` times 2^k over q, rounded to the nearest integer. -/
def qScale (k x : Nat) : Nat := (2 * x * 2 ^ k + qMod) / (2 * qMod)

/-- Digit `v` of a coefficient (R173). -/
def qDigit (g : GruSet) (v x : Nat) : Nat :=
  (qScale (g.levels * g.bgLog) x % 2 ^ (g.levels * g.bgLog)) / 2 ^ ((g.levels - 1 - v) * g.bgLog) % 2 ^ g.bgLog

/-- The external product of `d` with the GGSW entry whose row r is `row r` (R173). -/
def extProduct (g : GruSet) (row : Nat → Rlwe) (d : Rlwe) : Rlwe :=
  (List.range (2 * g.levels)).foldl (fun acc r =>
    let digits := (if r < g.levels then d.1 else d.2).map (qDigit g (r % g.levels))
    rlweAdd acc (polyMul digits (row r).1, polyMul digits (row r).2))
    (List.replicate g.deg 0, List.replicate g.deg 0)

/-- log2 of 2N. -/
def GruSet.logTwoN (g : GruSet) : Nat := Nat.log2 (2 * g.deg)

/-- rnd of R172: modulo 2N. -/
def lweRound (g : GruSet) (x : Nat) : Nat :=
  let sh := 32 - g.logTwoN
  w32 (x + 2 ^ (sh - 1)) / 2 ^ sh

/-- The test polynomial turned by X^-b' and blindly rotated by every a[j] (R172). -/
def blindRotate (g : GruSet) (bk : Nat → Nat → Rlwe) (c : Lwe) : Rlwe :=
  let v := List.replicate g.deg ((qMod + 4) / 8)
  let b := lweRound g (c.getD g.n 0)
  let acc0 : Rlwe := (List.replicate g.deg 0, polyRot ((2 * g.deg - b) % (2 * g.deg)) v)
  (List.range g.n).foldl (fun acc j =>
    let t := rlweRot (lweRound g (c.getD j 0)) acc
    rlweAdd acc (extProduct g (bk j) (rlweAdd t (polyNeg acc.1, polyNeg acc.2)))) acc0

/-- Sample extraction: dimension N modulo q. -/
def sampleExtract (acc : Rlwe) : List Nat :=
  (acc.1.take 1 ++ (polyNeg (acc.1.drop 1)).reverse) ++ acc.2.take 1

/-- The modulus switch to 2^32. -/
def modSwitch (e : List Nat) : Lwe := e.map (fun x => w32 (qScale 32 x))

/-- The key switch from dimension N to n (R173). -/
def keySwitch (g : GruSet) (ksk : Nat → Nat → Lwe) (f : Lwe) : Lwe :=
  let start := List.replicate g.n 0 ++ [f.getD g.deg 0]
  (List.range g.deg).foldl (fun acc i =>
    let x := w32 (f.getD i 0 + 2 ^ 15) / 2 ^ 16
    (List.range 4).foldl (fun acc v =>
      let d := x / 2 ^ (12 - 4 * v) % 16
      lweAdd acc (lweNeg ((ksk i v).map (fun w => w32 (d * w))))) acc) start

/-- Extracted sample of the blind rotation of `c`, modulo 2^32. -/
def extracted (g : GruSet) (bk : Nat → Nat → Rlwe) (c : Lwe) : Lwe := modSwitch (sampleExtract (blindRotate g bk c))

/-- The result of a gate with bootstraps (R171, R172). -/
def gateResult (g : GruSet) (bk : Nat → Nat → Rlwe) (ksk : Nat → Nat → Lwe) (gate : Nat) (a b sel : Lwe) : Lwe :=
  if gate = 0xD then
    let e1 := extracted g bk (lweOff 0xE0000000 (lweAdd sel a))
    let e2 := extracted g bk (lweOff 0xE0000000 (lweAdd (lweNeg sel) b))
    keySwitch g ksk (lweOff 0x20000000 (lweAdd e1 e2))
  else keySwitch g ksk (extracted g bk (gateLinear gate a b))

end Sys2Proof.Machine
end

