-- ==== Sys2Proof/Machine/GruOps.lean ====
section
/-! DEFINITION. Gate Refresh Units: gate program images (R178 to R180), key sets in memory (R168), wires, dealing of ready
gates (R176, R183), outputs (R182, R184), the end of a run (R186, R187). -/

namespace Sys2Proof.Machine

/-! ## Images (R178, R179) -/

/-- Bytes of the output list. -/
def GateProg.outBytes (g : GateProg) : Nat := ceilDiv (4 * g.nout) 16 * 16

/-- Offset of the constant section. -/
def GateProg.constAt (g : GateProg) : Nat := 64 + 16 * g.ngate + g.outBytes

def GateProg.imageLen (g : GateProg) : Nat := g.constAt + ceilDiv g.nconst 8

/-- The header of an image. -/
def progOf (slot tier base len : Nat) (h digest : Bytes) : GateProg :=
  ⟨slot, tier, base, len, byteAt h 1, le h 4 4, le h 8 4, le h 12 4, le h 16 4, digest⟩

/-- A gate record. -/
structure GateRec where
  gate : Nat
  a    : Nat
  b    : Nat
  sel  : Nat
  spare : Nat
deriving DecidableEq, Repr

def gateOf (r : Bytes) : GateRec :=
  let v := le r 0 16
  ⟨field v 124 4, field v 0 24, field v 24 24, field v 48 24, field v 72 52⟩

/-- Bytes of the registered image of a program of partition `p`. -/
def State.imageBytes (s : State) (p : Nat) (g : GateProg) (off n : Nat) : Bytes := s.ptBytes p g.tier (g.base + off) n

def State.gateAt (s : State) (p : Nat) (g : GateProg) (k : Nat) : GateRec := gateOf (s.imageBytes p g (64 + 16 * k) 16)

/-- The wire of output `k`. -/
def State.outputAt (s : State) (p : Nat) (g : GateProg) (k : Nat) : Nat :=
  le (s.imageBytes p g (64 + 16 * g.ngate + 4 * k) 4) 0 4

/-! ## Key sets in memory (R168) -/

def State.keyWord (s : State) (p : Nat) (k : KeySet) (off : Nat) : Nat := le (s.ptBytes p k.tier (k.base + off) 8) 0 8

/-- A polynomial of the BK. -/
def State.keyPoly (s : State) (p : Nat) (k : KeySet) (g : GruSet) (off : Nat) : List Nat :=
  (List.range g.deg).map (fun i => s.keyWord p k (off + 8 * i))

/-- Row `r` of GGSW entry `j`. -/
def State.bkRow (s : State) (p : Nat) (k : KeySet) (g : GruSet) (j r : Nat) : Rlwe :=
  let poly := 8 * g.deg
  let off := (j * (2 * g.levels) + r) * (2 * poly)
  (s.keyPoly p k g off, s.keyPoly p k g (off + poly))

/-- A ciphertext of partition `p` at an address. -/
def State.ctAt (s : State) (p : Nat) (g : GruSet) (tier addr : Nat) : Lwe := lweOf g.n (s.ptBytes p tier addr g.ct)

/-- Entry (i, v) of the KSK. -/
def State.kskAt (s : State) (p : Nat) (k : KeySet) (g : GruSet) (i v : Nat) : Lwe :=
  s.ctAt p g k.tier (k.base + g.bk + (4 * i + v) * g.ct)

/-- Entry of the zero table. -/
def State.zeroEntry (s : State) (p : Nat) (k : KeySet) (g : GruSet) (i : Nat) : Lwe :=
  s.ctAt p g k.tier (k.base + g.bk + g.ksk + i * g.ct)

/-- A line of partition `p` under `[a, a + n)` among `keys`: the partition addresses of their lines. -/
def State.linesUnder (s : State) (p tier a n : Nat) (keys : List Nat) : List Nat :=
  keys.filterMap (fun k => if keyTier k = tier then (match s.partAddr tier (keyAddr k) with
    | some (q, x) => if q = p ∧ overlaps a n x 64 then some (x / 64) else none
    | none => none) else none)

/-- A GRU reads a whole range of partition `p`: only lines in which an error has arisen and poisoned lines answer otherwise
than with their bytes (R199 to R201). -/
def State.scan (s : State) (p tier a n : Nat) : State × ReadRes :=
  if s.memKey p tier then
    (s.linesUnder p tier a n (s.mem.poison ++ s.mem.upset.map (·.1))).foldl (readLine p tier) (s, readInit)
  else (s, keyRefused 0)

/-! ## A run and its wires (R182, R183) -/

/-- What a run works on: its program, key set, parameter set and the three areas of its descriptor. -/
structure GruCtx where
  p    : Nat
  prog : GateProg
  keys : KeySet
  set  : GruSet
  inA  : AddrWord
  wires : AddrWord
  outA : AddrWord
deriving DecidableEq, Repr

/-- The key set that an ID of 0 to 4,095 names; no other ID names one (R170). -/
def State.keyset (s : State) (p id : Nat) : Option KeySet := if id < 4096 then tfind s.keysets (p * 4096 + id) else none

/-- The context of a GRU_RUN of partition `p`, from its descriptor. -/
def State.gruCtx (s : State) (p : Nat) (d : Bytes) : Option GruCtx :=
  match tfind s.progs (p * 256 + byteAt d 8), s.keyset p (le d 10 2) with
  | some g, some k => (gruSet g.param).map (fun x => ⟨p, g, k, x, addrAt d 16, addrAt d 24, addrAt d 32⟩)
  | _, _ => none

/-- The first gate's wire. -/
def GruCtx.firstGate (c : GruCtx) : Nat := c.prog.nin + c.prog.nconst

/-- Wire `w` is finished: an input, a constant, a gate whose bootstrap is done, a linear gate of a finished wire. `fuel`
bounds the chain of linear gates. -/
def State.wireDone (s : State) (c : GruCtx) (done : List Nat) : Nat → Nat → Bool
  | 0, _ => false
  | fuel + 1, w =>
    if w < c.firstGate then true
    else
      let k := w - c.firstGate
      let r := s.gateAt c.p c.prog k
      if gateCost r.gate = 0 then s.wireDone c done fuel r.a else done.contains k

/-- The ciphertext of a finished wire: linear gates are recomputed from their source (R183). -/
def State.wireVal (s : State) (c : GruCtx) (consts : List Bool) : Nat → Nat → Lwe
  | 0, _ => []
  | fuel + 1, w =>
    if w < c.prog.nin then s.ctAt c.p c.set c.inA.tier (c.inA.addr + w * c.set.ct)
    else if w < c.firstGate then lweConst c.set.n (consts.getD (w - c.prog.nin) false)
    else
      let k := w - c.firstGate
      let r := s.gateAt c.p c.prog k
      if gateCost r.gate = 0 then
        let x := s.wireVal c consts fuel r.a
        let flip := r.gate == 0 || (r.gate == 2 && !consts.getD (r.b - c.prog.nin) false)
        if flip then lweNeg x else x
      else s.ctAt c.p c.set c.wires.tier (c.wires.addr + k * c.set.ct)

/-- A wire can be read from below any gate count. -/
def GruCtx.fuel (c : GruCtx) : Nat := c.prog.ngate + 1

/-- The input wires of a gate with bootstraps. -/
def gateInputs (r : GateRec) : List Nat :=
  if r.gate = 0xE then [r.a] else if r.gate = 0xD then [r.sel, r.a, r.b] else [r.a, r.b]

/-- The gates that need bootstraps, in ascending order. -/
def State.bootGates (s : State) (c : GruCtx) : List Nat :=
  (List.range c.prog.ngate).filter (fun k => gateCost (s.gateAt c.p c.prog k).gate != 0)

/-- The GRUs of partition `p` that are online. -/
def State.onlineGrus (s : State) (p : Nat) : List Nat :=
  (bitsOf 16 (s.cfg p).grus).filter (fun g => !(tget gruInit s.grus g).offline)

/-- Gates that no GRU has and whose inputs are finished (R183). -/
def State.readyGates (s : State) (c : GruCtx) (done : List Nat) : List Nat :=
  let taken := (s.onlineGrus c.p).flatMap (fun g => (tget gruInit s.grus g).batch)
  (s.bootGates c).filter (fun k => !done.contains k && !taken.contains k
    && (gateInputs (s.gateAt c.p c.prog k)).all (s.wireDone c done c.fuel))

/-- One gate dealt: to the share with the fewest slots, the lowest GRU first; none when it does not fit in the largest batch.
Shares differ by at most two slots (R183). A share is its GRU, its gates, its slots. -/
def dealGate (cap : Nat) (shares : List (Nat × List Nat × Nat)) (k cost : Nat) : Option (List (Nat × List Nat × Nat)) :=
  match (shares.map (fun (e : Nat × List Nat × Nat) => e.2.2)).min? with
  | none => none
  | some low =>
    if cap < low + cost then none
    else some (modAt (shares.findIdx (fun (e : Nat × List Nat × Nat) => e.2.2 == low))
      (fun (e : Nat × List Nat × Nat) => (e.1, e.2.1 ++ [k], e.2.2 + cost)) shares)

/-- Gates dealt in order up to the first that does not fit: no later gate passes it (R183). -/
def dealAll (cap : Nat) (cost : Nat → Nat) : List Nat → List (Nat × List Nat × Nat) → List (Nat × List Nat × Nat)
  | [], shares => shares
  | k :: ks, shares =>
    match dealGate cap shares k (cost k) with
    | none => shares
    | some more => dealAll cap cost ks more

/-- The ready gates of a run dealt among the free GRUs of its partition. -/
def State.dealGates (s : State) (c : GruCtx) (done : List Nat) : State :=
  let free := (s.onlineGrus c.p).filter (fun g => (tget gruInit s.grus g).batch.isEmpty)
  let shares := dealAll c.set.batch (fun k => gateCost (s.gateAt c.p c.prog k).gate) (s.readyGates c done)
    (free.map (fun g => (g, [], 0)))
  (shares.filter (fun (e : Nat × List Nat × Nat) => !e.2.1.isEmpty)).foldl (fun s (e : Nat × List Nat × Nat) =>
    { s with grus := tset e.1 { tget gruInit s.grus e.1 with param := c.prog.param, batch := e.2.1, slots := e.2.2 } s.grus }) s

/-! ## The end of a run -/

/-- A run of partition `p` ends: batches dropped, constants gone (R186), bootstraps in DETAIL (R182). A stop gives its own
status, a finished run what it met (R399, R401). -/
def State.endRun (s : State) (p status : Nat) : State :=
  match tfind s.gruRuns p with
  | some r =>
    let met := match s.op r.op with
      | some o => o.status
      | none => stOk
    ({ s with gruRuns := tdel p s.gruRuns }.clearGrus p).finish r.op (if status = stOk then met else status) (leBytes 8 r.boots)
  | none => s

/-- A status met while the run goes on, for its completion (R399). -/
def State.noteRun (s : State) (p status : Nat) : State :=
  match tfind s.gruRuns p with
  | some r => match s.op r.op with
    | some o => s.setOp r.op { o with status := mergeStatus [o.status, status] }
    | none => s
  | none => s

/-- An output re-randomised (R184): one DRBG request gives the 512 bits r_k, then the 28 bits of f, read in two's
complement (notes/assumptions/45.md). -/
def State.flood (s : State) (c : GruCtx) (x : Lwe) : Lwe × State :=
  let r := s.drbgBytes c.p 68
  let bits := leNat r.1
  let sum := (bitsOf 512 bits).foldl (fun x k => lweAdd x (s.zeroEntry c.p c.keys c.set k)) x
  (lweOff (wrap 32 (signed 28 (bits / 2 ^ 512))) sum, r.2)

/-- The outputs written, in order (R182). -/
def State.writeOutputs (c : GruCtx) (consts : List Bool) (flood : Bool) : List Nat → State → State
  | [], s => s
  | k :: ks, s =>
    let x := s.wireVal c consts c.fuel (s.outputAt c.p c.prog k)
    let e := if flood then s.flood c x else (x, s)
    let w := e.2.memWrite c.p c.outA.tier (c.outA.addr + k * c.set.ct) (lweBytes c.set.ct e.1)
    State.writeOutputs c consts flood ks (w.1.noteRun c.p w.2.status)

/-- A run reads its image, its key set, its inputs and the finished entries of WIRES; what the reads met
(notes/assumptions/46.md). -/
def State.runScan (s : State) (c : GruCtx) (done : List Nat) : State × ReadRes :=
  let more := fun (x : State × ReadRes) (r : Nat × Nat × Nat) =>
    let y := x.1.scan c.p r.1 r.2.1 r.2.2
    (y.1, x.2.join y.2)
  ([(c.prog.tier, c.prog.base, c.prog.len), (c.keys.tier, c.keys.base, c.keys.len),
    (c.inA.tier, c.inA.addr, c.prog.nin * c.set.ct)]
    ++ done.map (fun k => (c.wires.tier, c.wires.addr + k * c.set.ct, c.set.ct))).foldl more (s, readInit)

/-- A run goes on: it ends with its outputs when every gate is finished, with ST_GRU_LOST without an online GRU, else its
ready gates are dealt (R182, R183, R187). -/
def State.settleGru (s : State) (p : Nat) : State :=
  match tfind s.gruRuns p with
  | none => s
  | some r =>
    match (s.op r.op).bind (fun o => s.gruCtx p o.bytes) with
    | none => s
    | some c =>
      let m := s.runScan c r.done
      let s1 := m.1.noteRun p m.2.status
      if !m.2.good then s1.endRun p m.2.status
      else if (s1.bootGates c).all r.done.contains then
        (State.writeOutputs c r.consts r.flood (List.range c.prog.nout) s1).endRun p stOk
      else if (s1.onlineGrus p).isEmpty then s1.endRun p stGruLost
      else s1.dealGates c r.done

end Sys2Proof.Machine
end

