-- ==== Sys2Proof/Machine/HostReset.lean ====
section
/-! DEFINITION. Driver loss (R265), function-level and hot reset (R269, R270), PERST_N (R373), TDISP and IDE (R271). -/

namespace Sys2Proof.Machine

/-- Causes of HIF_STAT.CAUSE (R272). -/
abbrev lossHeartbeat : Nat := 1
abbrev lossLink : Nat := 2
abbrev lossBme : Nat := 3
abbrev lossFlr : Nat := 4
abbrev lossHotReset : Nat := 5
abbrev lossTdisp : Nat := 6
abbrev lossD3 : Nat := 7

def State.detach (s : State) (f cause : Nat) : State := onRep (Rep.detach f cause) s

/-- Every function, 0 to 32. -/
def allFns : List Nat := List.range 33

/-! ## Heartbeat -/

/-- HIF_HEARTBEAT: every write is a heartbeat. -/
def execHifHeartbeat (fn : Nat) (v : Word) (s : State) : Res :=
  .next (if s.isRun then s.setFn fn { s.fn fn with hbVal := v, hbFrom := s.now } else s)

/-- HIF_HB_CFG: 0, or 10 to 60,000; a change restarts the three intervals. -/
def execHifHbCfgWrite (fn : Nat) (v : Word) (s : State) : Res :=
  .next (let n := v.toNat % 65536
    if s.isRun ∧ (n = 0 ∨ (10 ≤ n ∧ n ≤ 60000)) ∧ n ≠ (s.fn fn).hbMs then
      s.setFn fn { s.fn fn with hbMs := n, hbFrom := s.now }
    else s)

/-- Three intervals without a heartbeat on ACTIVE rings. -/
def execHeartbeatExpiry (fn : Nat) (s : State) : Res :=
  .next (let h := s.fn fn
    if h.hbMs ≠ 0 ∧ h.rings = .active then (s.atLeast (h.hbFrom + 3 * h.hbMs * msNs)).detach fn lossHeartbeat else s)

/-! ## The other causes of driver loss -/

/-- The link is down: driver loss on every function. -/
def State.linkLoss (s : State) : State := allFns.foldl (fun s f => s.detach f lossLink) s

def execLinkDown (s : State) : Res := .next s.linkLoss

def execBusMasterEnableClear (fn : Nat) (s : State) : Res := .next (s.detach fn lossBme)

def execD3hotEntry (fn : Nat) (s : State) : Res := .next (s.detach fn lossD3)

/-! ## Resets -/

/-- The control window at a reset: staged words that were not committed are gone; a command that executes finishes into
the reset-held area (R270). -/
def CmdWin.atReset (w : CmdWin) : CmdWin := { w with words := [], lost := false, toHeld := w.toHeld || w.busy }

/-- The HIF registers of a function at a reset (R269): RW and RW1C fields return; HIF_STAT, the doorbells of R255, the
reset-held area are kept. -/
def HifFn.atReset (h : HifFn) : HifFn :=
  { h with win := h.win.atReset, hbMs := 0, hbVal := 0, hiLatch := [], loStage := [] }

/-- The ingest registers at a reset (R163, R269): CUT_KIB, ING_ISTAT and ING_IEN return. -/
def Ingest.atReset (g : Ingest) : Ingest := { g with cut := 0, istat := 0, ien := ingestInit.ien }

/-- The registers that a VF decodes and that belong to it or its partition return under R8 (R269): HIF, the VF copy of
GLB_DET_STAT, ING, the error latch of the VF. -/
def State.vfRegs (s : State) (p : Nat) : State :=
  { s.setFn (p + 1) (s.fn (p + 1)).atReset with
    glb := { s.glb with detVf := tset p 0 s.glb.detVf }
    ingest := tset p (tget ingestInit s.ingest p).atReset s.ingest
    mem := { s.mem with errVf := tset p { tget errInit s.mem.errVf p with valid := false } s.mem.errVf } }

/-- The registers that only the PF decodes, and its own, return under R8, RWS fields kept (R269): HIF, the PF copy of
GLB_DET_STAT, RNG_CTL and RNG_STAT.EMPTY_READ, SEC_DBG_WIN, FW_MBOX_ADDR, the PF error latch. -/
def State.pfRegs (s : State) : State :=
  { s.setFn 0 (s.fn 0).atReset with
    glb := { s.glb with detPf := 0 }
    rng := { s.rng with tap := false, inject := false, tapSrc := 0, empty := false }
    sec := { s.sec with dbgWin := 0 }
    fw := { s.fw with mboxLo := 0, mboxHi := 0 }
    mem := { s.mem with errPf := { s.mem.errPf with valid := false } } }

/-- A reset of one function with its cause of detachment; sessions that its DOE mailbox carries end (R337). -/
def State.resetFn (s : State) (f cause : Nat) : State :=
  let s1 := s.detach f cause
  let s2 := if f = 0 then s1.pfRegs else s1.vfRegs (f - 1)
  s2.endSessions (fun x => x.carrier == .doe f)

/-- A function-level reset of the VF of partition `p`. -/
def execVfFlr (p : Nat) (s : State) : Res := .next (s.resetFn (p + 1) lossFlr)

/-- A reset of every function: the PF, then each VF, because VF Enable is cleared. -/
def State.resetAll (s : State) (cause : Nat) : State := allFns.foldl (fun s f => s.resetFn f cause) s

/-- A function-level reset of the PF, which acts on every VF too. -/
def execPfFlr (s : State) : Res := .next (s.resetAll lossFlr)

/-- A hot reset: as a function-level reset of every function, with cause HOT_RESET. -/
def execHotReset (s : State) : Res := .next (s.resetAll lossHotReset)

/-- PERST_N asserted: a link-down and a host-interface reset, never a module reset (R373). -/
def execPerstNAssert (s : State) : Res :=
  .next (if s.pwr.perst then s
    else (({ s with pwr := { s.pwr with perst := true } }).linkLoss).resetAll lossHotReset)

/-- PERST_N released. -/
def execPerstNRelease (s : State) : Res := .next { s with pwr := { s.pwr with perst := false } }

/-- HIF_HELD_STAT.CLEAR: the reset-held area is free (R270). -/
def execHifHeldStatClear (fn : Nat) (s : State) : Res :=
  .next (if s.isRun then
      let h := s.fn fn
      s.setFn fn { h with win := { h.win with heldValid := false, heldReplaced := false } }
    else s)

/-! ## TDISP and IDE -/

/-- The TDI of partition `p`'s VF enters ERROR: its rings are detached and its held records discarded. -/
def execTdispError (p : Nat) (s : State) : Res :=
  .next (let f := p + 1
    if p < 32 then
      let s1 := s.setFn f { s.fn f with tdi := .error }
      onRep (Rep.discardHeld f) (s1.detach f lossTdisp)
    else s)

/-- CONFIG_UNLOCKED to CONFIG_LOCKED. -/
def execTdispLockInterface (p : Nat) (s : State) : Res :=
  .next (let f := p + 1
    if p < 32 ∧ (s.fn f).tdi = .unlocked then s.setFn f { s.fn f with tdi := .locked } else s)

/-- CONFIG_LOCKED to RUN. -/
def execTdispStartInterface (p : Nat) (s : State) : Res :=
  .next (let f := p + 1
    if p < 32 ∧ (s.fn f).tdi = .locked then s.setFn f { s.fn f with tdi := .run } else s)

/-- Back to CONFIG_UNLOCKED. -/
def execTdispStopInterface (p : Nat) (s : State) : Res :=
  .next (let f := p + 1
    if p < 32 then s.setFn f { s.fn f with tdi := .unlocked } else s)

/-- A BAR0 request outside the IDE stream of a TDI in CONFIG_LOCKED or RUN: Unsupported Request, counted. -/
def execNonIdeRequest (p : Nat) (s : State) : Res :=
  .next (let f := p + 1
    if (s.fn f).tdi = .locked ∨ (s.fn f).tdi = .run then
      (s.put (.unsupported f)).count (some p) (hifIdx f 4) 1
    else s)

end Sys2Proof.Machine
end

