-- ==== Sys2Proof/Machine/ResetOps.lean ====
section
/-! DEFINITION. What goes down with the main rails and what stays (R8, R23, R209, R304, R311, R404), HOLDUP (R240, R378),
start events (R376), module resets (R382), measurement and derived keys at a boot (R324 to R326), and the crypto-erase and
scrub that a tenant switch or a boot runs (R210, R245, R344). -/

namespace Sys2Proof.Machine

/-! ## The layout in force -/

/-- The entry of partition `p` in a layout block (R317). -/
def layEntry (b : Bytes) (p : Nat) : Bytes := slice b (32 * p) 32

/-- The unit numbers of an entry: tier A, tier B, tier C. -/
def layUnits (b : Bytes) (p tier : Nat) : List Nat :=
  let e := layEntry b p
  let na := le e 8 2
  let nb := le e 10 2
  let skip := match tier with | 0 => 0 | 1 => na | _ => na + nb
  let n := match tier with | 0 => na | 1 => nb | _ => le e 12 2
  (List.range n).map (fun i => le b (le e 16 4 + 2 * (skip + i)) 2)

/-- What a layout block gives partition `p`. -/
def layCfg (b : Bytes) (p : Nat) : PartCfg :=
  let e := layEntry b p
  ⟨le e 0 4, le e 4 2, le e 6 2, layUnits b p 0, layUnits b p 1, layUnits b p 2⟩

/-- A layout comes into force: routing and ownership (R316, R319). -/
def State.applyLayout (s : State) (b : Bytes) : State :=
  (List.range 32).foldl (fun s p => s.setPart p { s.part p with cfg := layCfg b p }) { s with layout := b }

/-- Layout as the configuration store holds it: a PARTITION mark that is not DONE has not changed it (R316). -/
def State.storedLayout (s : State) : Bytes :=
  match s.mrd.marks.find? (fun (e : Nat × Mark) => e.2.action == 8 && e.2.st == .applied) with
  | some (_, m) => m.oldLay
  | none => s.layout

/-! ## Main rails off -/

/-- A round as the next boot finds it: its tickets and secrets are gone (R114, R116). -/
def Round.atReset (x : Round) : Round :=
  { x with
    freeing := false, openOp := none, freeOp := none, staged := [], collOpen := false, thrAt := none, wants := false
    draining := false, seed := [], unmask := .none, blocks := [], stalled := false }

/-- The configuration store keeps a Panel's health and remaps (R67, R70). -/
def Panel.atReset (x : Panel) : Panel := { panelInit with health := x.health, remapped := x.remapped, orphan := x.orphan }

def Flash.atReset (f : Flash) : Flash :=
  { f with
    st := 0, dumpInc := false, torn := 0, patrol := flashInit.patrol, budget := 0, energy := 0, short := false, waitFrom := none
    extents := [] }

def MemCtl.atReset (m : MemCtl) : MemCtl :=
  { memInit with retired := m.retired, spares := m.spares, defective := m.defective, stuck := m.stuck }

def Mrd.atReset (m : Mrd) : Mrd :=
  { mrdInit with domain := m.domain, ports := m.ports, profile := m.profile, source := m.source, nextSeq := m.nextSeq }

def Sec.atReset (x : Sec) : Sec :=
  { x with
    switchRun := false, retiring := false, slots := [], masks := zeros 8192, maskDrbg := none, held := x.latch, ide := []
    sessions := [], dbgWin := 0, weights := [], cdi1 := zeros 48, cdi2 := zeros 48, m1 := zeros 48, m2 := zeros 48
    devPub := zeros 97, certs := [] }

/-! ## Manifests (R354) -/

def manifestBytes : Nat := 1056

/-- Entry `i` of a manifest, 0 to 6. -/
def manEntry (m : Bytes) (i : Nat) : Bytes := slice m (64 + 128 * i) 128

def manEpoch (m : Bytes) : Nat := byteAt m 2

def manCfg (m : Bytes) : Nat := byteAt m 3

def manVersion (m : Bytes) : Nat := le m 4 4

def manSet (m : Bytes) : Nat := le m 8 4

def manLength (m : Bytes) : Nat := le m 16 8

/-- DIGEST of entry `i`. -/
def manDigest (m : Bytes) (i : Nat) : Bytes := slice (manEntry m i) 48 48

/-- OFFSET and LENGTH of entry `i`. -/
def manRange (m : Bytes) (i : Nat) : Nat × Nat := (le (manEntry m i) 96 8, le (manEntry m i) 8 8)

/-- The signature of a manifest. -/
def manSigned (m : Bytes) : Bool :=
  ecdsaVerify (beBytes 97 Config.firmwareKey.toNat) (sha384 (slice m 0 960)) (slice m 960 96)

/-- The update key of a device-set key and its SET_ID (R355). -/
def updateKeyOf (key : Bytes) (set : Nat) : Bytes := hkdf384 key (ascii "LLY-FWUP") (leBytes 4 set) 32

/-- Part `i` of a manifest verifies over its ciphertext: its tag under the update key, its digest (R355). -/
def partVerifies (key m : Bytes) (i : Nat) (ct : Bytes) : Bool :=
  let e := manEntry m i
  match gcmOpen key (slice e 16 12) (slice e 0 16) ct (slice e 32 16) with
  | some pt => sha384 pt == manDigest m i
  | none => false

/-- Bytes of slot A: what was copied into it, or the bundle as shipped. -/
def Fw.readA (f : Fw) (off n : Nat) : Bytes :=
  match f.slotA with
  | some m => rdBytes m off n
  | none => (List.range n).map (fun i => Config.shippedByte (off + i))

/-- The manifest in slot A (0) or slot B (1), and bytes of the bundle there. -/
def Fw.manIn (f : Fw) (slot : Nat) : Bytes := if slot = 1 then f.manB else f.manA

def Fw.readIn (f : Fw) (slot off n : Nat) : Bytes := if slot = 1 then rdBytes f.bytesB off n else f.readA off n

/-- The parts `ids` of the bundle in a slot verify under the update key of this module. -/
def State.slotVerifies (s : State) (slot : Nat) (ids : List Nat) : Bool :=
  let m := s.fw.manIn slot
  ids.all (fun i => partVerifies (updateKeyOf (beBytes 32 Config.deviceSetKey.toNat) s.sec.setId) m i
    (s.fw.readIn slot (manRange m i).1 (manRange m i).2))

/-- The manifest that runs: slot B's from its activation until the copy has emptied the slot (R364, R365). -/
def Fw.manifest (f : Fw) : Bytes := if f.running = 1 ∧ f.slotB = 3 then f.manB else f.manA

/-! ## Crash dumps (R367 to R369) -/

/-- A capture ends: its dump is kept unless one is held. -/
def Fw.keepDump (f : Fw) (cause core now : Nat) : Fw :=
  { f with
    dump := match f.dump with
      | some d => some d
      | none => some ⟨cause, core, now, f.dumpNo, sha384 f.manifest⟩
    capture := none, dumpNo := f.dumpNo + 1 }

/-- A capture in progress completes (R368). -/
def Fw.atReset (f : Fw) (now : Nat) : Fw :=
  let g := match f.capture with
    | some (c, n, _) => f.keepDump c n now
    | none => f
  { g with load := 0, bootOk := false, mboxLo := 0, mboxHi := 0, offered := false, waitFrom := 0, resetDue := false }

/-- Everything outside the AUX domain and the stores that outlive it is gone. -/
def State.clearMain (s : State) : State :=
  let lay := s.storedLayout
  let s1 := { s with
    glb := { s.glb with det := false, detPf := 0, detVf := [] }
    evSeq := [], cntMod := [], cntPart := [], hif := [], ops := [], parts := []
    panels := s.panels.map (fun (e : Nat × Panel) => (e.1, e.2.atReset)), regions := [], xfers := []
    rounds := s.rounds.map (fun (e : Nat × Round) => (e.1, e.2.atReset)), ingest := []
    loom := ⟨0, false, false, 0, false⟩, shc := ⟨0, false, 0⟩
    grus := s.grus.map (fun (e : Nat × Gru) => (e.1, { gruInit with offline := e.2.offline })), keysets := [], progs := []
    gruRuns := [], tierA := [], tierB := [], mem := s.mem.atReset, flc := s.flc.atReset, fab := fabInit
    mrd := s.mrd.atReset, sec := s.sec.atReset, rng := rngInit, fw := s.fw.atReset s.now }
  s1.applyLayout lay

/-! ## HOLDUP (R240, R378, R388) -/

/-- The units that R240 stops: no operation of theirs ends any more. -/
def State.stopUnits (s : State) : State :=
  { s with
    ops := [], xfers := [], gruRuns := [], hif := []
    panels := s.panels.map (fun (e : Nat × Panel) => (e.1, { e.2.free with sweeps := [] }))
    grus := s.grus.map (fun (e : Nat × Gru) => (e.1, { e.2 with batch := [], slots := 0 }))
    fab := { s.fab with msgs := [], rx := [], ports := [], flushes := [], unbinds := [], armed := [] } }

/-- Entry to HOLDUP at t0: the gate closes, the units stop, the pins begin their dwell. -/
def State.enterHoldup (s : State) (fromBank : Bool) : State :=
  let s1 := { s with
    pwr := { s.pwr with
      phase := .holdup, dump := some ⟨s.now, s.flc.energy, fromBank⟩, dwell := some s.now, tripped := s.pwr.tripHold } }
  s1.stopUnits

/-- Main rails off without a dump. -/
def State.railsOff (s : State) (ph : Phase) : State :=
  let s1 := s.clearMain
  { s1 with pwr := { s1.pwr with phase := ph, mainOk := false, dump := none, tripped := s1.pwr.tripHold } }

/-- A module reset by the module itself (R344, R366, R367): the dump of R240 from main power, then a start. -/
def State.selfReset (s : State) : State :=
  if s.pwr.phase = .run then
    let s1 := s.enterHoldup false
    { s1 with pwr := { s1.pwr with selfRst := true } }
  else s

/-! ## Throttled time (R387) -/

/-- The time during which the ceiling is below the ARRAY_CLOCK item is counted. -/
def State.settleThrottle (s : State) : State :=
  match s.pwr.thrFrom with
  | none => if s.pwr.ceiling < s.pwr.clock then { s with pwr := { s.pwr with thrFrom := some s.now } } else s
  | some t =>
    if s.pwr.ceiling < s.pwr.clock then s
    else { s with pwr := { s.pwr with thrFrom := none } }.count none cntPwrThrottle (s.now - t)

/-! ## Start events (R376, R377) -/

/-- A start event with its LAST_START code (R393): AUX_ONLY. A trip that it clears is reported (R388). TRIPPED stays until the next stop. -/
def State.startEvent (s : State) (code : Nat) : State :=
  let p := s.pwr
  let s1 := { s with
    pwr := { p with
      phase := .auxOnly, lastStart := code, latched := false, rom := false, mainOk := false, dump := none
      dwell := if p.phase = .offHeld then some s.now else p.dwell, dumpDone := false, keysClr := false, selfRst := false
      rstRel := false, stepAt := s.now, tripHold := false, alert := false, ceiling := 1850, clock := 1850, thrFrom := none } }
  if p.tripHold then s1.raise srcPower evPwrTrip 0xFF [] else s1

/-- A trip can clear: every junction below 60 and the inlet at or below 40 (R388). -/
def State.cool (s : State) : Bool := decide (s.pwr.junction < 60) && decide (s.pwr.inlet ≤ 40)

/-- A start event of `code` where a trip does not forbid it; one that clears a trip has code 3 (R388). -/
def State.tryStart (s : State) (code : Nat) : State :=
  if s.pwr.tripHold then (if s.cool then s.startEvent 3 else s) else s.startEvent code

/-! ## DICE (R324, R325) -/

/-- A key pair's private scalar from its seed (R325). -/
def diceScalar (seed : Bytes) : Nat := ecScalar (Config.hkdf56 seed)

/-- A certificate of the chain: its to-be-signed bytes, signed by `d` with a nonce made of 56 open bytes. -/
def certificateOf (level : Nat) (pub info : Bytes) (d : Nat) (rand : Bytes) : Bytes :=
  let t := Config.certificate level pub info
  Config.derCert t (ecdsaSign d (ecScalar rand) (sha384 t))

/-- The certificates of a boot (R325): DeviceID certifies the alias key with M1 and LIFECYCLE, the alias key the device
identity key with M2 and every part digest. -/
def State.certify (s : State) (m : Bytes) (devId alias1 ident : Nat) : State :=
  let k := s.freeBytes 112
  let c := certificateOf 1 (ecPublic alias1) (s.sec.m1 ++ leBytes 1 s.sec.lifecycle) devId (k.1.take 56)
    ++ certificateOf 2 (ecPublic ident) (s.sec.m2 ++ (List.range 7).flatMap (manDigest m)) alias1 (k.1.drop 56)
  { k.2 with sec := { k.2.sec with devPub := ecPublic devId, certs := c } }

/-- Measurements, compound identifiers, the certificates and the device identity key of the running manifest. A retired
module has no UDS. -/
def State.derive (s : State) : State :=
  let m := s.fw.manifest
  let m1 := manDigest m 0
  let m2 := sha384 ((List.range 6).flatMap (fun i => manDigest m (i + 1)))
  if s.sec.udsFused then { s with sec := { s.sec with m1 := m1, m2 := m2 } }
  else
    let uds := beBytes 48 Config.uds.toNat
    let c1 := hmac384 uds (ascii "CDI1" ++ leBytes 1 s.sec.lifecycle ++ m1)
    let c2 := hmac384 c1 (ascii "CDI2" ++ m2)
    let s1 := { s with sec := { s.sec with m1 := m1, m2 := m2, cdi1 := c1, cdi2 := c2 } }
    let s2 := s1.certify m (diceScalar (hmac384 uds (ascii "DEVID"))) (diceScalar c1) (diceScalar c2)
    s2.setSlot 0 ⟨true, beBytes 48 (diceScalar c2), 2, 2, false, true, false, 0, 2 ^ engCart, 0⟩

/-- The keys that the ROM and the Thimble derive at a boot: slots 1, 3 and 4 (R326). -/
def State.bootKeys (s : State) : State :=
  let put := fun (s : State) n k e => s.setSlot n ⟨true, k, 2, 2, false, true, false, 0, 2 ^ e, 0⟩
  let s1 := put s 1 (beBytes 32 Config.deviceSetKey.toNat) engKdf
  if s.sec.udsFused then s1 else put (put s1 3 (Config.udsKdf 3) engTierC) 4 (Config.udsKdf 4) engKdf

/-! ## Tenant switch (R344) -/

/-- Steps 3 and 4 of R344 in their end: tier C erased, both tiers blank. -/
def State.eraseAll (s : State) : State := (s.eraseTierC).blankAll

/-- Step 5 of R344. -/
def State.switchCommit (s : State) : State :=
  { s with sec := { s.sec with epoch := s.sec.epoch + 1, tenantId := none, pending := false, switchRun := false } }

/-- The random source has passed its tests and the lifecycle state generates keys (R346, R347). -/
def State.keysOk (s : State) : Bool := s.rng.passed && !s.rng.alarm && decide (s.sec.lifecycle < 2)

/-- The memory keys, the media key and the DRBG of a partition that is configured, keys before the DRBG's seed (R195, R218,
R348, R349). -/
def State.partKeys (s : State) (p : Nat) : State :=
  if s.keysOk ∧ s.enabled p then ((s.newMemKeys p).newMedia p).newDrbg p else s

/-- Keys generated at a boot once the random source has passed: the system key and those of every enabled partition, then
the seeds of the DRBGs, the Thimble's and the partitions' in ascending order (R348, R349). -/
def State.makeKeys (s : State) : State :=
  if s.keysOk then
    let ps := (List.range 32).filter (fun p => s.enabled p)
    let k := ps.foldl (fun s p => (s.newMemKeys p).newMedia p) (s.newKey 2 32 engMem 1 2 none)
    ps.foldl (fun s p => s.newDrbg p) k.newMaskDrbg
  else s

/-- What a boot does once memory is up and the random source has passed: a boot out of FAULT_SECURE leaves it by steps 3 to
5 of R344 (a latch set since this boot began needs the next one), then keys are made (R3, R195, R344, R348). -/
def State.bootSecure (s : State) : State :=
  if s.isRun ∧ s.rng.passed then
    let s1 := if s.sec.lifecycle = 2 ∧ s.sec.held then
        let e := s.eraseAll.switchCommit
        { e with sec := { e.sec with latch := false, held := false }, flc := { e.flc with st := if e.flc.wp then 3 else 2 } }
      else s
    s1.makeKeys
  else s

/-- A GRU taken out of its partition (R188): from here on no partition holds it (`State.gruPart`; notes/assumptions/80.md). -/
def State.gruOut (s : State) (g : Nat) : State :=
  let p := (s.gruPart g).getD 0xFF
  { s with grus := tset g { tget gruInit s.grus g with offline := true, batch := [], slots := 0 } s.grus }.raise (srcGru g)
    evGruOffline p (leBytes 1 g ++ leBytes 1 p)

end Sys2Proof.Machine
end

