-- ==== Sys2Proof/Machine/GratOps.lean ====
section
/-! DEFINITION. Marks beyond rounds as shared operations: visibility and listing (R310, R311), module-wide marks and their
reserved entries, participants (R314), changed partitions and what a PARTITION mark destroys (R319), firmware activation
(R363 to R366), apply, rollback and end (R315). -/

namespace Sys2Proof.Machine

/-! ## Entries -/

/-- MODE, PARTITION and FIRMWARE marks (R310). -/
def Mark.wide (m : Mark) : Bool := decide (7 ≤ m.action)

/-- A module-wide mark and its reserved entry placed; answers its entry too. -/
def State.addWide (s : State) (m : Mark) : Nat × State :=
  let i := s.newEntry
  let s1 := s.addMark m
  let j := s1.newEntry
  let s2 := s1.addMark { m with time := m.time + 1 * msNs, st := .reserved, partner := some i, layout := [] }
  (i, match s2.mark i with
    | some x => s2.setMark i { x with partner := some j }
    | none => s2)

/-- An entry freed with its reserved one. -/
def State.dropMark (s : State) (i : Nat) (m : Mark) : State :=
  match m.partner with
  | some j => (s.delMark i).delMark j
  | none => s.delMark i

/-- A module-wide mark of time `t` would lie less than 11 ms from another (R310). -/
def State.wideNear (s : State) (t : Nat) : Bool :=
  s.mrd.marks.any (fun (e : Nat × Mark) => e.2.wide && e.2.st != .reserved && decide (t < e.2.time + 11 * msNs)
    && decide (e.2.time < t + 11 * msNs))

/-- The codes of R311. -/
def MarkSt.code : MarkSt → Nat
  | .set => 1 | .arming => 2 | .armed => 3 | .applied => 4 | .reserved => 5

/-- An entry visible to a function (R310). -/
def Mark.seen (m : Mark) (fn : Nat) : Bool := fn == 0 || m.part == fn - 1

/-- A MARK_LIST record (R310). -/
def Mark.record (m : Mark) : Bytes :=
  time10 m.time ++ leBytes 1 m.action ++ leBytes 1 m.part ++ leBytes 1 m.st.code ++ zeros 3
    ++ leBytes 4 (if m.action ≤ 4 then 0 else m.tag) ++ zeros 12

/-- An entry placed in the order of MARK_LIST. -/
def insertMark (m : Mark) : List Mark → List Mark
  | [] => [m]
  | x :: xs => if m.before x then m :: x :: xs else x :: insertMark m xs

/-- The entries in the order of MARK_LIST. -/
def sortMarks (l : List Mark) : List Mark := l.foldr insertMark []

/-! ## Changed partitions (R319) -/

/-- A partition whose entry or unit numbers differ; of a partition without resources in both layouts nothing differs that
counts (R318). -/
def partChanged (old new : Bytes) (p : Nat) : Bool :=
  (layEntry old p != layEntry new p || layCfg old p != layCfg new p) && ((layCfg old p).enabled || (layCfg new p).enabled)

def changedParts (old new : Bytes) : List Nat := (List.range 32).filter (partChanged old new)

def setStop (stop : Bool) (s : State) (p : Nat) : State := s.setPart p { s.part p with stop := stop }

/-- Dispatch of the partitions that a PARTITION mark changes stops, or resumes. -/
def State.stopParts (s : State) (m : Mark) (old : Bytes) (stop : Bool) : State :=
  (changedParts old m.layout).foldl (setStop stop) s

/-! ## Participants (R314) -/

/-- The units that a layout names for a partition. -/
def PartCfg.unitIds (c : PartCfg) : List Nat :=
  c.panels.map (fun n => srcPanel n) ++ (bitsOf 16 c.grus).map (fun g => srcGru g)
    ++ (if c.tierA.isEmpty then [] else (List.range 16).map (fun k => srcTierA k))
    ++ (if c.tierB.isEmpty then [] else (List.range 16).map (fun k => srcTierB k))
    ++ (if c.tierC.isEmpty then [] else [srcFlash])

def allPanels : List Nat := (List.range 64).map (fun n => srcPanel n)

/-- The participants of a mark, in the order in which EV_MRD_MARK_ABORTED looks for the first one not armed. -/
def State.participants (s : State) (m : Mark) : List Nat :=
  if m.action ≤ 4 then [srcEngine m.part]
  else match m.action with
    | 5 => [srcScheduler]
    | 6 => [srcScheduler]
    | 7 => if m.item = 1 then allPanels ++ (List.range 272).map (fun u => srcSeam u) else srcPower :: allPanels
    | 8 => [srcScheduler, srcHost] ++ ((changedParts (if m.st = .applied then m.oldLay else s.layout) m.layout).flatMap (fun p =>
        (layCfg (if m.st = .applied then m.oldLay else s.layout) p).unitIds ++ (layCfg m.layout p).unitIds)).eraseDups
    | _ => [srcThimble, srcPower, srcHost, srcScheduler] ++ allPanels ++ [srcFlash] ++ (List.range 16).map (fun g => srcGru g)

/-- A dispatched descriptor of function `f` (or of any, for `none`) has not completed; a staged SHARE_SUM does not count
(R363). -/
def State.unfinished (s : State) (f : Option Nat) : Bool :=
  s.ops.any (fun (e : Nat × Op) => e.2.origin != .control && e.2.phase != .done
    && (match f with | some n => e.2.fn == n | none => true)
    && !s.rounds.any (fun (r : Nat × Round) => r.2.staged.any (fun (x : Staged) => x.op == e.1)))

/-- The preparation of a mark can complete: for PARTITION, round slots IDLE and every fetched descriptor complete in every
changed partition (R319); for FIRMWARE, every dispatched descriptor complete and the slot still as the mark needs it (R363, R366). -/
def State.armReady (s : State) (m : Mark) : Bool :=
  match m.action with
  | 8 => (changedParts s.layout m.layout).all (fun p =>
      (s.round (2 * p)).st == .idle && (s.round (2 * p + 1)).st == .idle && !s.unfinished (some (p + 1))
        && (s.fn (p + 1)).fetched.isEmpty)
  | 9 => !s.unfinished none && (if m.fallback then s.fw.image == 1 else s.fw.slotB == 2)
  | _ => true

/-! ## MODE (R312) -/

/-- One mode item set; answers the value it replaces. -/
def State.setMode (s : State) (item v : Nat) : Nat × State :=
  if item = 1 then (b2n s.glb.det, { s with glb := { s.glb with det := v == 1 } })
  else (s.pwr.clock, { s with pwr := { s.pwr with clock := v } }.settleThrottle)

/-! ## A changed partition at DONE (R316, R319) -/

/-- The fabric state of a partition goes; the counters of its jobs are kept for their keys (R276). -/
def State.dropFabric (s : State) (p : Nat) : State :=
  let mine := s.fab.jobs.filter (fun (e : Nat × Job) => e.2.part == p)
  { s with
    fab := { s.fab with
      jobs := s.fab.jobs.filter (fun (e : Nat × Job) => e.2.part != p)
      jobSeqs := mine.foldl (fun t (e : Nat × Job) => tset e.1 (sha384 (s.slot e.2.slot).key, e.2.txSeq) t) s.fab.jobSeqs
      queues := tdelRange (p * 64) (p * 64 + 64) s.fab.queues
      windows := tdelRange (p * 2048) (p * 2048 + 2048) s.fab.windows
      peers := tdelRange (p * 4096) (p * 4096 + 4096) s.fab.peers
      rx := s.fab.rx.filter (fun (e : Nat × RxEntry) => e.2.part != p)
      msgs := s.fab.msgs.filter (fun (e : Nat × Msg) => e.2.part != p)
      flushes := s.fab.flushes.filter (fun (e : Nat × FlushWait) => e.2.part != p)
      armed := s.fab.armed.filter (fun (a : Armed) => a.part != p) } }

/-- The tables of a partition in the Seam units, GRUs and the Thimble go. -/
def State.dropTables (s : State) (p : Nat) : State :=
  { s with
    regions := tdelRange (p * 1024) (p * 1024 + 1024) s.regions
    keysets := tdelRange (p * 4096) (p * 4096 + 4096) s.keysets
    progs := tdelRange (p * 256) (p * 256 + 256) s.progs
    sec := { s.sec with weights := tdelRange (p * 64) (p * 64 + 64) s.sec.weights }
    ingest := tmod ingestInit p (fun (g : Ingest) => { g with queue := [] }) s.ingest
    cntPart := tdelRange (p * 64) (p * 64 + 64) s.cntPart }

/-- Tier C of a changed partition: units that left their address are trimmed, the log shrinks to what it holds (R222, R319). -/
def State.dropTierC (s : State) (p : Nat) (old new : PartCfg) : State :=
  let gone := (List.range old.tierC.length).filter (fun i => old.tierC.getD i 0 != new.tierC.getD i 0xFFFF)
  let s1 := gone.foldl (fun s i => s.trimUnit p i) s
  let l := s1.gens p
  s1.setFlc { s1.flc with ckpts := tset p (reclaim (fun _ => false) (s1.genComplete p) new.logBytes (l.length + 1) l) s1.flc.ckpts }

/-- What a changed partition loses when the mark is DONE, and the keys of its new configuration. -/
def State.partDone (s : State) (old new : PartCfg) (p : Nat) : State :=
  let s1 := (s.dropFabric p).zeroise (fun n k =>
    n == 8 + 2 * p || n == 9 + 2 * p || n == 72 + p || (decide (168 ≤ n) && k.part == p && !k.anyPart))
  let s2 := (s1.dropTables p).dropTierC p old new
  let s3 := { s2 with
    panels := s2.panels.map (fun (e : Nat × Panel) =>
      if old.panels.contains e.1 ∨ new.panels.contains e.1 then (e.1, e.2.atReset) else e) }
  let s4 := onRep (Rep.discardHeld (p + 1)) s3
  let s5 := s4.setPart p { s4.part p with
    stop := false, blanking := old.enabled || new.enabled, drbg := none, log := [], chain := zeros 48 }
  let s6 := old.tierA.foldl (fun s u => s.blankUnit 0 u) s5
  let s7 := old.tierB.foldl (fun s u => s.blankUnit 1 u) s6
  { s7 with mem := { s7.mem with busy := true, kind := 2 } }.partKeys p

/-! ## Firmware (R325, R363 to R366) -/

/-- The chain is derived again: sessions end and MEAS_BOUND slots are zeroised. -/
def State.newImage (s : State) : State :=
  ((s.derive).endSessions (fun _ => true)).zeroise (fun _ k => k.meas)

/-- Slot B runs, basted. -/
def State.basted (s : State) : State :=
  let s1 := { s with fw := { s.fw with image := 1, slotB := 3, running := 1, cfgFmt := manCfg s.fw.manB } }
  s1.newImage.raise srcThimble evFwBasted 0xFF (leBytes 4 (manVersion s.fw.manB))

/-- Slot A is the image again: slot B is FAILED, the old format of the configuration store is used. -/
def State.failB (s : State) : State :=
  { s with fw := { s.fw with image := 0, slotB := 4, running := 0, cfgFmt := manCfg s.fw.manA } }.raise srcThimble evFwFallback
    0xFF (leBytes 4 (manVersion s.fw.manB))

/-- The fallback mark of a FIRMWARE mark goes with its reserved entry (R366). -/
def State.dropFallback (s : State) (m : Mark) : State :=
  match s.mark m.desc with
  | some f => if f.fallback then s.dropMark m.desc f else s
  | none => s

/-! ## Abort (R314) -/

/-- A mark aborted for every participant; `unit` is the first that was not armed. -/
def State.abortMark (s : State) (i : Nat) (m : Mark) (unit : Nat) : State :=
  let s1 := (s.dropMark i m).markEvent evMrdMarkAborted m (leBytes 2 unit)
  if m.action ≤ 4 then s1.abortRound (2 * m.part + m.slot) causeMarkAborted
  else match m.action with
    | 8 => s1.stopParts m s1.layout false
    | 9 => if m.fallback then s1.selfReset else s1.dropFallback m
    | _ => s1

/-! ## The end of the applied window (R315, R316) -/

/-- The firmware core of a unit, where it has one (R22, R341, R353). -/
def coreOf (unit : Nat) : Option Nat :=
  let n := unit % 1024
  match unit / 1024 with
  | 0x01 => some n
  | 0x07 => some (68 + n)
  | 0x0A => some 67
  | 0x0E => some 66
  | 0x0F => some 65
  | 0x10 => some 64
  | _ => none

/-- A LASTING fault of a Ring Sum Engine, a record check unit or a Seam unit (R112). -/
def State.shardUnitFault (s : State) (unit : Nat) : State :=
  match unit / 1024 with
  | 0x02 => s.engineFault (unit % 1024)
  | 0x03 => s.engineFault (unit % 1024)
  | 0x04 => s.seamFault (if unit % 1024 < 256 then 0 else 1)
  | _ => s

/-- A participant that cannot report itself ARMED: it leaves the ARMED ones of every entry whose deadline has not passed
(R314). -/
def State.failArming (s : State) (unit : Nat) : State :=
  { s with
    mrd := { s.mrd with
      marks := s.mrd.marks.map (fun e =>
        let m := e.2
        if (m.st = .arming ∨ m.st = .armed) ∧ s.now ≤ m.time - 50 * usNs ∧ (s.participants m).contains unit then
          (e.1, { m with st := .arming, armed := m.armed.filter (· != unit), failed := unit :: m.failed })
        else e) } }

/-- A participant that faulted again is out of service under the LASTING rule of its own chapter (R69, R112, R188). -/
def State.unitOut (s : State) (unit : Nat) : State :=
  if unit / 1024 = 1 then (s.setPanel (unit % 1024) { s.panel (unit % 1024) with health := 3 }).reDeal (unit % 1024)
  else if unit / 1024 = 7 then
    match s.gruPart (unit % 1024) with
    | some p => (s.gruOut (unit % 1024)).settleGru p
    | none => s.gruOut (unit % 1024)
  else s.shardUnitFault unit

/-- The partition of a unit that a partition holds (R395). -/
def State.unitPart (s : State) (unit : Nat) : Option Nat :=
  match unit / 1024 with
  | 0x01 => s.panelPart (unit % 1024)
  | 0x02 => some (unit % 1024)
  | 0x03 => some (unit % 1024)
  | 0x07 => s.gruPart (unit % 1024)
  | _ => none

/-- Every participant restores the state it held before the mark. -/
def State.rollback (s : State) (m : Mark) : State :=
  match m.action with
  | 7 => (s.setMode m.item m.oldVal).2
  | 8 => (s.applyLayout m.oldLay).stopParts m m.oldLay false
  | 9 => if m.fallback then s.selfReset else { s.dropFallback m with fw := { s.fw with slotB := 4, running := m.oldVal } }
  | _ => s

/-- The mark is DONE: what cannot be undone is done now. -/
def State.markDone (s : State) (m : Mark) : State :=
  match m.action with
  | 8 => (changedParts m.oldLay m.layout).foldl (fun s p => s.partDone (layCfg m.oldLay p) (layCfg m.layout p) p) s
  | 9 => if m.fallback then s.failB.newImage else s.basted
  | _ => s

end Sys2Proof.Machine
end

