-- ==== Sys2Proof/Machine/Firmware.lean ====
section
/-! DEFINITION. Bundles, slots, loading, staging, activation, core faults and crash dumps
(spec/15_firmware_and_update.md), and the page programs of tier C, pieces of slot B among them (R237, R361). -/

namespace Sys2Proof.Machine

/-! ## Manifest and part checks (R354 to R356) -/

/-- The fields of entry `i` as R354 gives them. -/
def manEntryOk (m : Bytes) (i : Nat) : Bool :=
  let e := manEntry m i
  let r := manRange m i
  le e 0 2 == i + 1 && zeroAt e 2 2 && zeroAt e 28 4 && zeroAt e 104 24 && decide (manifestBytes ≤ r.1)
    && decide (r.1 + r.2 ≤ manLength m)

/-- No two parts overlap. -/
def manApart (m : Bytes) : Bool :=
  (List.range 7).all (fun i => (List.range i).all (fun j =>
    !overlaps (manRange m i).1 (manRange m i).2 (manRange m j).1 (manRange m j).2))

def manFieldOk (m : Bytes) : Bool :=
  byteAt m 0 == 1 && byteAt m 1 == 7 && zeroAt m 12 4 && zeroAt m 24 40 && decide (manLength m ≤ 2 ^ 30)
    && (List.range 7).all (manEntryOk m) && manApart m

/-- The first failing check of R356. -/
def State.manStatus (s : State) (m : Bytes) : Nat :=
  if !manFieldOk m then stFwField
  else if !manSigned m then stFwManifest
  else if manSet m ≠ s.sec.setId then stFwSet
  else if manEpoch m < s.fw.floor then stFwRollback
  else if manCfg m ≠ manCfg s.fw.manA ∧ manCfg m ≠ manCfg s.fw.manA + 1 then stFwField
  else stOk

/-- The update key (R355). -/
def State.updateKey (s : State) : Bytes := updateKeyOf (s.slot 1).key s.sec.setId

/-- Entry `i` verifies over its ciphertext (R355). -/
def State.partOk (s : State) (m : Bytes) (i : Nat) (ct : Bytes) : Bool :=
  (s.slot 1).valid && partVerifies s.updateKey m i ct

/-- The parts `ids` of a bundle verify. -/
def State.bundleOk (s : State) (m bundle : Bytes) (ids : List Nat) : Bool :=
  ids.all (fun i => s.partOk m i (slice bundle (manRange m i).1 (manRange m i).2))

/-- Every part of slot B verifies. -/
def State.slotBOk (s : State) : Bool :=
  (List.range 7).all (fun i =>
    s.partOk s.fw.manB i (rdBytes s.fw.bytesB (manRange s.fw.manB i).1 (manRange s.fw.manB i).2))

/-! ## Loading (R358 to R360, R392) -/

/-- The random source's start-up test has ended. -/
def Rng.ended (r : Rng) : Bool := r.passed || r.alarm

/-- Every core runs once the load parts are loaded and the start-up test has ended. -/
def State.startCores (s : State) : State :=
  if s.fw.load = 3 ∧ s.rng.ended then
    { s with fw := { s.fw with load := 4 } }.raise srcThimble evFwLoaded 0xFF (leBytes 4 (manVersion s.fw.manifest))
  else s

/-- A rejection with its status. -/
def State.rejectLoad (s : State) (status : Nat) : State :=
  s.raise srcThimble evFwLoadRejected 0xFF (leBytes 2 status)

/-- The status of a manifest that passes R356 and is not the booted one: one of R359's, which the spec does not choose. -/
def anyReject (b : Nat) : Nat := [stFwField, stFwManifest, stFwSet, stFwRollback, stFwPartAuth].getD (b % 5) stFwField

/-- A bundle offered on either path. -/
def State.takeBundle (s : State) (bundle : Bytes) : State :=
  let m := slice bundle 0 manifestBytes
  if m = s.fw.manifest then
    if s.bundleOk m bundle [3, 4, 5, 6] then { s with fw := { s.fw with load := 3, offered := false } }.startCores
    else s.rejectLoad stFwPartAuth
  else
    let st := s.manStatus m
    if st ≠ stOk then s.rejectLoad st
    else
      let f := s.freeBytes 1
      f.2.rejectLoad (anyReject (byteAt f.1 0))

/-- The module waits for a bundle. -/
def State.loadWaits (s : State) : Bool := s.isRun && (s.fw.load == 1 || s.fw.load == 2)

/-- 30 s after the wait began the mailbox opens. -/
def execLoadWaitTimeout (s : State) : Res :=
  .next (if s.isRun ∧ s.fw.load = 1 then
      let s1 := s.atLeast (s.fw.waitFrom + 30 * nsPerSec)
      { s1 with fw := { s1.fw with load := 2 } }.raise srcThimble evFwMailboxOpen 0xFF []
    else s)

/-- FW_MBOX_CTL.GO: the bundle at FW_MBOX_ADDR is offered. -/
def execFwMboxGo (s : State) : Res :=
  .next (if s.isRun ∧ s.fw.load = 2 then { s with fw := { s.fw with offered := true } } else s)

/-- The DMA of an offered bundle has brought it. -/
def execMailboxBundleReadDone (bundle : Bytes) (s : State) : Res :=
  .next (if s.loadWaits ∧ s.fw.offered then { s with fw := { s.fw with offered := false } }.takeBundle bundle else s)

/-- A bundle pulled over the management link. -/
def execMgmtImageTransferDone (bundle : Bytes) (s : State) : Res :=
  .next (if s.loadWaits then s.takeBundle bundle else s)

/-! ## Staging (R361, R362) -/

/-- Pieces of a bundle. -/
def manPieces (m : Bytes) : Nat := ceilDiv (manLength m) 65536

/-- Every piece of slot B is present. -/
def Fw.complete (f : Fw) : Bool := f.slotB == 1 && !f.manB.isEmpty && (List.range (manPieces f.manB)).all f.pieces.contains

/-- A complete bundle is verified: STAGED, or FAILED with the status of its last piece. -/
def State.settleBundle (s : State) : State × Nat :=
  if !s.fw.complete then (s, stOk)
  else if s.slotBOk then
    ({ s with fw := { s.fw with slotB := 2 } }.raise srcThimble evFwStaged 0xFF (leBytes 4 (manVersion s.fw.manB)), stOk)
  else ({ s with fw := { s.fw with slotB := 4 } }, stFwPartAuth)

/-- Extents of a piece of slot B. -/
def Extent.piece (x : Extent) : Bool :=
  match x.pages with
  | ⟨.piece _ _ _, _, _⟩ :: _ => true
  | _ => false

/-- Slot B discarded: its descriptors complete with ST_FW_STATE. Pieces that wait at the gate go with it; the gate cancels no
extent that it has started, and what such a one still programs belongs to no slot (R239, R361). -/
def State.discardB (s : State) (slotB : Nat) (refused : Bool) : State :=
  let s1 := (s.flc.extentOps Extent.piece).foldl (fun s op => s.finish op stFwState) s
  let s2 := { s1 with
    fw := { s1.fw with
      slotB := slotB, pieces := [], parts := [], stageNo := s1.fw.stageNo + 1, manB := [], bytesB := [], refused := refused }
    flc := { s1.flc with
      extents := s1.flc.extents.map (fun (e : Nat × Extent) => if e.2.piece then (e.1, { e.2 with op := none }) else e) } }
  s2.dropExtents (fun x => x.piece && !x.started)

/-- The fields of FW_STAGE. `bound` is BUNDLE_LENGTH where it is known. -/
def stageFieldOk (d : Bytes) (bound : Option Nat) : Bool :=
  let off := le d 24 8
  let n := le d 32 4
  decide (byteAt d 8 < 2) && zeroAt d 9 7 && zeroAt d 36 28 && off % 65536 == 0 && decide (0 < n) && decide (n ≤ 65536)
    && decide (off + n ≤ 2 ^ 30) && (match bound with
      | some b => decide (off + n = b) || (n == 65536 && decide (off + n ≤ b))
      | none => true)

/-- FW_STAGE without BEGIN is out of order (R361, R362). -/
def State.stageState (s : State) (d : Bytes) : Nat :=
  if bit (byteAt d 8) 0 then (if s.fw.slotB = 3 then stFwState else stOk)
  else if s.fw.slotB = 2 ∨ s.fw.slotB = 3 ∨ s.fw.slotB = 4 ∨ s.fw.refused then stFwState
  else stOk

/-- BUNDLE_LENGTH as slot B's manifest gives it, unless a BEGIN discards it. -/
def Fw.bound (f : Fw) (d : Bytes) : Option Nat :=
  if bit (byteAt d 8) 0 ∨ f.manB.isEmpty then none else some (manLength f.manB)

/-- A piece with its bytes: the first one brings the manifest, every accepted one goes to the gate. -/
def State.stagePiece (s : State) (d piece : Bytes) (op : Option Nat) : State × Nat :=
  let off := le d 24 8
  let data := slice piece 0 (le d 32 4)
  let s0 := if bit (byteAt d 8) 0 then s.discardB 1 false else { s with fw := { s.fw with slotB := 1 } }
  let m := slice data 0 manifestBytes
  let st := if off = 0 then
      let a := s0.manStatus m
      if a = stOk ∧ !stageFieldOk d (some (manLength m)) then stFwField else a
    else stOk
  if st ≠ stOk then (s0.discardB 0 true, st)
  else
    let s1 := if off = 0 then { s0 with fw := { s0.fw with manB := m } } else s0
    let parts := (piecesOf pageData data).mapIdx (fun i b => (i, b))
    (s1.addExtent op none true data.length (parts.map (fun (e : Nat × Bytes) =>
      ⟨.piece s1.fw.stageNo (off + pageData * e.1) parts.length, .bytes e.2, []⟩)), stOk)

/-- FW_STAGE: `piece` is what host memory returns. -/
def execFwStage (op : Nat) (piece : Bytes) (s : State) : Res :=
  .next (onReady 0x93 op s (fun o =>
    if !s.flashReady then s
    else
      let d := o.bytes
      let st := s.stageState d
      if !stageFieldOk d (s.fw.bound d) then s.finish op stFwField
      else if st ≠ stOk then s.finish op st
      else if !s.reachable 0 then s.finish op stHifHostUnreachable
      else
        let r := s.stagePiece d piece (some op)
        if r.2 ≠ stOk then r.1.finish op r.2 else r.1.running op o))

/-- The end of an extent: with the last piece of slot B its bundle is verified, and the status joins the piece's (R361). -/
def State.pieceEnd (x : Extent) (s : State) : State :=
  match x.pages with
  | ⟨.piece no _ _, _, _⟩ :: _ =>
    if no = s.fw.stageNo then
      let b := s.settleBundle
      b.1.noteWrite x b.2
    else s
  | _ => s

/-- A page program of a started extent completes and verifies (R237); HOLDUP still finishes those that were started (R240). -/
def execFlashProgramDone (extent : Nat) (res : ProgramEnd) (s : State) : Res :=
  .next (match tfind s.flc.extents extent with
    | none => s
    | some x =>
      if (!s.isRun ∧ s.pwr.phase ≠ .holdup) ∨ !x.started ∨ s.pageBehind extent x then s
      else s.pageDone extent x res (State.pieceEnd x))

/-! ## Activation (R363 to R366) -/

def fallbackNs : Nat := 600 * nsPerSec

/-- The status of FW_ACTIVATE. -/
def State.activateStatus (s : State) (o : Op) : Nat :=
  let t := (timeAt o.bytes 16).getD 0
  if !zeroAt o.bytes 8 8 ∨ !zeroAt o.bytes 26 38 ∨ (timeAt o.bytes 16).isNone then stFwField
  else if s.fw.slotB ≠ 2 then stFwState
  else if s.freeMarks < 4 then stMrdFull
  else if s.wideNear t ∨ s.wideNear (t + fallbackNs) then stMrdConflict
  else if t < o.aux + 10 * msNs then stMrdMarkPast
  else stOk

/-- FW_ACTIVATE: the FIRMWARE mark, and the fallback mark 600 s later. -/
def execFwActivate (op : Nat) (s : State) : Res :=
  .next (onReady 0x94 op s (fun o =>
    let st := s.activateStatus o
    if st ≠ stOk then s.finish op st
    else
      let t := (timeAt o.bytes 16).getD 0
      let f := s.addWide { plainMark (t + fallbackNs) 9 0xFF 0 o.tag with fallback := true }
      let m := f.2.addWide { plainMark t 9 0xFF 0 o.tag with desc := f.1 }
      m.2.finish op stOk))

/-- The fallback mark of a basted image. -/
def State.fallbackMark (s : State) : Option (Nat × Mark) :=
  s.mrd.marks.find? (fun (e : Nat × Mark) => e.2.fallback && e.2.st != .reserved)

/-- FW_CONFIRM: the basted image is confirmed, unless its fallback mark arms already. -/
def execFwConfirmWrite (v : Word) (s : State) : Res :=
  .next (if !s.isRun then s
    else if s.fw.image ≠ 1 ∨ v.toNat ≠ manVersion s.fw.manB then s.countMod cntFwBadConfirm
    else
      let confirm := fun (s : State) => { s with fw := { s.fw with image := 2, floor := max s.fw.floor (manEpoch s.fw.manB) } }
      match s.fallbackMark with
      | some (i, m) => if m.st = .set then confirm (s.dropMark i m) else s
      | none => confirm s)

/-- The copy of slot B to slot A is verified. -/
def execSlotCopyDone (s : State) : Res :=
  .next (if s.isRun ∧ s.fw.image = 2 then
      { s with fw := { s.fw with
          image := 0, slotB := 0, manA := s.fw.manB, slotA := some s.fw.bytesB, manB := [], pieces := [], parts := [], bytesB := [] } }.raise
        srcThimble evFwStitched 0xFF (leBytes 4 (manVersion s.fw.manB))
    else s)

/-! ## Crash dumps (R367 to R370) -/

def dumpMax : Nat := 268435456

/-- Byte `i` of a dump: the header as R369 fixes it; sections, lengths and what the capture read are open. -/
def Dump.byte (x : Dump) (i : Nat) : Byte :=
  let free := Config.dumpByte x.no
  let sections := 1 + (free 4).toNat % 248
  let length := leNat [free 8, free 9, free 10, free 11] % (dumpMax + 1)
  let head := leBytes 1 1 ++ leBytes 1 x.cause ++ leBytes 2 x.core ++ leBytes 4 sections ++ leBytes 8 length
    ++ time10 x.time ++ zeros 6 ++ x.manifest ++ zeros 48
  if i < 128 then head.getD i 0 else free i

/-- The fields of FW_DUMP_READ. -/
def dumpFieldOk (d : Bytes) : Bool :=
  decide (byteAt d 8 < 4) && zeroAt d 9 7 && zeroAt d 36 28
    && (bit (byteAt d 8) 1 || (decide (le d 32 4 % 16 = 0) && decide (le d 24 8 + le d 32 4 ≤ dumpMax)))

/-- FW_DUMP_READ without CAPTURE. -/
def execFwDumpRead (op : Nat) (s : State) : Res :=
  .next (onReady 0x95 op s (fun o =>
    let d := o.bytes
    if bit (byteAt d 8) 1 then s
    else if !dumpFieldOk d then s.finish op stFwField
    else match s.fw.dump with
      | none => s.finish op stFwNoDump
      | some x =>
        if !s.reachable 0 then s.finish op stHifHostUnreachable
        else
          let s1 := s.put (.hostWrite 0 (le d 16 8) ((List.range (le d 32 4)).map (fun i => x.byte (le d 24 8 + i))))
          let s2 := if bit (byteAt d 8) 0 then { s1 with fw := { s1.fw with dump := none } } else s1
          s2.finish op stOk))

/-- The core number of a dump (R369). -/
def dumpCore (core : Nat) : Nat := if 67 ≤ core then 67 else core

/-- The events of a capture (R368). -/
def State.dumpEvent (s : State) (code cause core : Nat) : State :=
  s.raise srcThimble code 0xFF (leBytes 1 cause ++ leBytes 2 core)

/-- A capture discarded: a dump is held, or will be by the one in progress. -/
def State.loseDump (s : State) (cause core : Nat) : State :=
  (s.countMod cntFwDumpLost).dumpEvent evFwDumpLost cause core

/-- A capture begins. -/
def State.startCapture (s : State) (cause core : Nat) (op : Option Nat) : State :=
  match s.fw.capture with
  | some _ => s.loseDump cause core
  | none => { s with fw := { s.fw with capture := some (cause, core, op) } }

/-- FW_DUMP_READ with CAPTURE: a dump of every core. -/
def execFwDumpCapture (op : Nat) (s : State) : Res :=
  .next (onReady 0x95 op s (fun o =>
    if !bit (byteAt o.bytes 8) 1 ∨ s.fw.capture.isSome then s
    else if !dumpFieldOk o.bytes then s.finish op stFwField
    else (s.startCapture 3 0xFFFF (some op)).running op o))

/-- A capture completes: kept, or lost to one that is held; the module reset that waits for it follows (R367). -/
def execCrashDumpCaptureDone (s : State) : Res :=
  .next (match s.fw.capture with
    | none => s
    | some (cause, core, op) =>
      let s0 := { s with fw := s.fw.keepDump cause core s.now }
      let s1 := if s.fw.dump.isSome then s0.loseDump cause core else s0.dumpEvent evFwDump cause core
      let s2 := match op with
        | some id => s1.finish id stOk
        | none => s1
      if s.fw.resetDue then { s2 with fw := { s2.fw with resetDue := false } }.selfReset else s2)

/-! ## Core faults (R367, R400) -/

/-- The partition whose unit a core belongs to. -/
def State.corePart (s : State) (core : Nat) : Option Nat :=
  if core < 64 then s.panelPart core
  else if 68 ≤ core ∧ core < 84 then s.gruPart (core - 68)
  else none

/-- The gate program that runs on GRU `g` ends with `status` (R187, R367). -/
def State.stopGru (s : State) (g status : Nat) : State :=
  match s.gruPart g with
  | none => s
  | some p => s.endRun p status

/-- A TRANSIENT fault of a core marks the operation in flight on its unit (R400). -/
def State.coreNote (s : State) (core : Nat) : State :=
  if core < 64 then
    if (s.panel core).run.isSome then s.tileStatus core stTransientCore (s.panel core).pc else s
  else if 68 ≤ core ∧ core < 84 ∧ !(tget gruInit s.grus (core - 68)).batch.isEmpty then
    match s.gruPart (core - 68) with
    | some p => s.noteRun p stTransientCore
    | none => s
  else s

/-- What a LASTING fault of a core does to its operations; a second one within 60 s takes its Panel or GRU offline. -/
def State.coreLost (s : State) (core : Nat) : State :=
  let again := match tfind s.fw.coreAt core with
    | some t => decide (s.now < t + 60 * nsPerSec)
    | none => false
  let s1 := { s with fw := { s.fw with coreAt := tset core s.now s.fw.coreAt } }
  if core < 64 then
    let s2 := if (s1.panel core).run.isSome then (s1.stopPanel core stFwCoreFault (s1.panel core).pc).settle core else s1
    if again then s2.unitOut (srcPanel core) else s2
  else if 68 ≤ core ∧ core < 84 then
    let g := core - 68
    let s2 := if (tget gruInit s1.grus g).batch.isEmpty then s1 else s1.stopGru g stFwCoreFault
    if again then s2.unitOut (srcGru g) else s2
  else if core ≤ 67 then { s1 with fw := { s1.fw with resetDue := true } }
  else s1

/-- The unit of a core (R22, R341, R353): the edge dies' microcode belongs to the host interface. -/
def coreUnit (core : Nat) : Nat :=
  if core < 64 then srcPanel core
  else if 68 ≤ core ∧ core < 84 then srcGru (core - 68)
  else match core with
    | 64 => srcScheduler
    | 65 => srcPower
    | 66 => srcThimble
    | 67 => srcFlash
    | _ => srcHost

/-- A core that failed: `cause` is the dump's. A LASTING fault keeps it from being ARMED (R314). -/
def State.coreFault (s : State) (core cause : Nat) : ErrClass → State
  | .corrected => s
  | .transient => (s.countError (s.corePart core) cntTransient).coreNote core
  | .lasting =>
    (((s.countError (s.corePart core) cntLasting).startCapture cause (dumpCore core) none).coreLost core).failArming (coreUnit core)

def execCoreFault (core : CoreNo) (cls : ErrClass) (s : State) : Res :=
  .next (if s.isRun then s.coreFault core 1 cls else s)

def execWatchdogExpiry (core : CoreNo) (cls : ErrClass) (s : State) : Res :=
  .next (if s.isRun then s.coreFault core 2 cls else s)

end Sys2Proof.Machine
end

