-- ==== Sys2Proof/Machine/Graticule.lean ====
section
/-! DEFINITION. The Meridian descriptors, the acts of marks, PART_CONFIG, and the disciplining of the Meridian
(spec/13_meridian_and_partitions.md). -/

namespace Sys2Proof.Machine

/-! ## MARK_SET (R309, R310, R312, R313) -/

/-- The partition that a MARK_SET names: a VF's own; 0xFF for MODE. -/
def Op.markPart (o : Op) : Nat :=
  if byteAt o.bytes 8 = 7 then 0xFF else if o.fn = 0 then byteAt o.bytes 9 else o.fn - 1

/-- A MODE item and its VALUE (R312). -/
def modeOk (item v : Nat) : Bool :=
  (item == 1 && decide (v < 2)) || (item == 2 && decide (925 ≤ v) && decide (v ≤ 1850) && v % 25 == 0)

/-- The fields of a MARK_SET are in range and its action is one that the function may set. -/
def State.markFieldOk (s : State) (o : Op) : Bool :=
  let d := o.bytes
  zeroAt d 10 6 && zeroAt d 26 6 && zeroAt d 48 16 && (timeAt d 16).isSome && (match byteAt d 8 with
    | 5 => s.enabled o.markPart && (addrAt d 32).plain
    | 6 => s.enabled o.markPart || (o.fn == 0 && o.markPart == 0xFF)
    | 7 => o.fn == 0 && modeOk (le d 40 4) (le d 44 4)
    | _ => false)

/-- The status of a MARK_SET: the range row of R258, then R313. -/
def State.markSetStatus (s : State) (o : Op) : Nat :=
  let d := o.bytes
  let t := (timeAt d 16).getD 0
  let w := addrAt d 32
  let wide := byteAt d 8 == 7
  if byteAt d 8 = 5 ∧ w.plain ∧ s.enabled o.markPart ∧ !s.inUnits o.markPart w.tier w.addr 64 then stHifSpace
  else if !s.markFieldOk o then stMrdField
  else if s.freeMarks < (if wide then 2 else 1) then stMrdFull
  else if wide ∧ s.wideNear t then stMrdConflict
  else if t < o.aux + 10 * msNs then stMrdMarkPast
  else stOk

/-- The mark that a MARK_SET sets. -/
def Op.newMark (o : Op) : Mark :=
  let d := o.bytes
  { plainMark ((timeAt d 16).getD 0) (byteAt d 8) o.markPart 0 o.tag with
    desc := le d 32 8, item := le d 40 4, value := le d 44 4 }

def execMarkSet (op : Nat) (s : State) : Res :=
  .next (onReady 0x80 op s (fun o =>
    let st := s.markSetStatus o
    if st ≠ stOk then s.finish op st
    else (if o.newMark.wide then (s.addWide o.newMark).2 else s.addMark o.newMark).finish op stOk))

/-! ## MARK_CANCEL, MARK_LIST (R310, R311) -/

/-- The entry that a MARK_CANCEL names: of those visible with the TAG, the one set first. -/
def State.cancelEntry (s : State) (fn tag : Nat) : Option (Nat × Mark) :=
  (s.mrd.marks.filter (fun (e : Nat × Mark) => decide (5 ≤ e.2.action) && decide (e.2.action ≤ 8) && e.2.st != .reserved
    && e.2.tag == tag && e.2.seen fn)).foldl (fun (a : Option (Nat × Mark)) e => match a with
      | some x => if e.2.seq < x.2.seq then some e else a
      | none => some e) none

/-- MARK_CANCEL. On a VF, a TAG that only entries outside its partition carry names an entry outside R310 (R313). -/
def execMarkCancel (op : Nat) (s : State) : Res :=
  .next (onReady 0x81 op s (fun o =>
    if !zeroAt o.bytes 8 8 ∨ !zeroAt o.bytes 20 44 then s.finish op stMrdField
    else match s.cancelEntry o.fn (le o.bytes 16 4) with
      | none => s.finish op (if (s.cancelEntry 0 (le o.bytes 16 4)).isSome then stMrdField else stMrdNotFound)
      | some (i, m) => if m.st = .set then (s.dropMark i m).finish op stOk else s.finish op stMrdTooLate))

/-- The bytes that a MARK_LIST writes for function `fn`. -/
def State.markRecords (s : State) (fn : Nat) : Bytes :=
  (sortMarks ((s.mrd.marks.map (fun (e : Nat × Mark) => e.2)).filter (fun (m : Mark) => m.seen fn))).flatMap Mark.record
    ++ zeros 32

def execMarkList (op : Nat) (s : State) : Res :=
  .next (onReady 0x82 op s (fun o =>
    if !zeroAt o.bytes 8 8 ∨ !zeroAt o.bytes 24 40 then s.finish op stMrdField
    else if !s.reachable o.fn then s.finish op stHifHostUnreachable
    else (s.put (.hostWrite o.fn (le o.bytes 16 8) (s.markRecords o.fn))).finish op stOk))

/-! ## Offsets, TIME_SET (R304, R306, R307) -/

/-- An offset at the i32 range. -/
def sat32 (v : Int) : Int := max (-2147483648) (min 2147483647 v)

/-- The fraction of a second that brings `t` to the nearest whole second. -/
def toSecond (t : Int) : Int :=
  let f := t % (nsPerSec : Int)
  if 2 * f ≤ (nsPerSec : Int) then -f else nsPerSec - f

/-- The source's offset from a Meridian that has just been set to `t`: the source stands at the count plus the correction that
it still owes (R307). -/
def State.offsetFrom (s : State) (t : Nat) : Int :=
  let off := s.mrd.slew + s.now - t
  if s.mrd.source = 2 ∨ s.mrd.st = 0 then s.mrd.offset
  else if s.mrd.source = 1 then -(toSecond off)
  else sat32 off

/-- MRD_OFFSET takes a value; EV_MRD_OFFSET_LARGE is raised once when it comes to exceed 1 ms (R307). -/
def State.noteOffset (s : State) (off : Int) : State :=
  let big := decide (off < -1000000) || decide (1000000 < off)
  let t := { s with mrd := { s.mrd with offset := sat32 off, large := big } }
  if big ∧ !s.mrd.large then t.raise srcMeridian evMrdOffsetLarge 0xFF (leBytes 4 (wrap 32 (sat32 off))) else t

/-- TIME_SET: a step while no entry is set. -/
def execTimeSet (op : Nat) (s : State) : Res :=
  .next (onReady 0x83 op s (fun o =>
    match timeAt o.bytes 16 with
    | none => s.finish op stMrdField
    | some t =>
      if !zeroAt o.bytes 8 8 ∨ !zeroAt o.bytes 26 38 then s.finish op stMrdField
      else if !s.mrd.marks.isEmpty then s.finish op stMrdMarksSet
      else
        let off := s.offsetFrom t
        (({ s with now := t, mrd := { s.mrd with stepped := true, slew := 0 } }).noteOffset off).finish op stOk))

/-! ## Arming (R314, R319) -/

/-- Arming begins 10 ms before a mark; for a PARTITION mark dispatch of the changed partitions stops. -/
def execMarkArmingStart (entry : Nat) (s : State) : Res :=
  .next (match s.mark entry with
    | none => s
    | some m =>
      if s.isRun ∧ m.st = .set then
        let s1 := (s.atLeast (m.time - 10 * msNs)).setMark entry { m with st := .arming, armed := [], failed := [] }
        if m.action = 8 then s1.stopParts m s1.layout true else s1
      else s)

/-- 50 µs before a mark: the latest time at which a participant is ARMED. -/
def Mark.deadline (m : Mark) : Nat := m.time - 50 * usNs

/-- A participant reports itself ARMED; with the last of them the entry is ARMED. `err` is the error that it met while it
prepared: TRANSIENT is counted and changes nothing, LASTING keeps it from being ARMED (R314). -/
def execMarkParticipantArmed (entry : Nat) (unit : BitVec 16) (err : Option ErrClass) (s : State) : Res :=
  .next (match s.mark entry with
    | none => s
    | some m =>
      let u := unit.toNat
      let all := s.participants m
      let due := decide (m.st = .arming) && all.contains u && !m.armed.contains u && !m.failed.contains u && decide (s.now ≤ m.deadline)
      if due ∧ err = some .lasting then (s.countError (s.unitPart u) cntLasting).failArming u
      else if due ∧ s.armReady m then
        let s1 := if err = some .transient then s.countError (s.unitPart u) cntTransient else s
        let l := u :: m.armed
        s1.setMark entry { m with armed := l, st := if all.all l.contains then .armed else .arming }
      else s)

/-- A mark that is not ARMED at its deadline is aborted. -/
def execMarkArmDeadline (entry : Nat) (s : State) : Res :=
  .next (match s.mark entry with
    | none => s
    | some m =>
      if s.isRun ∧ (m.st = .set ∨ m.st = .arming) then
        let first := ((s.participants m).find? (fun u => !m.armed.contains u)).getD 0
        (s.atLeast m.deadline).abortMark entry m first
      else s)

/-! ## The acts of marks (R309, R312, R319, R364, R366) -/

/-- A stored descriptor accepted at its mark, ahead of every descriptor that waits; it is dispatched at once unless
something holds it back. -/
def State.dispatchStored (s : State) (fn : Nat) (x : Fetched) : State :=
  if !s.serving ∨ s.dispatchHeld fn ∨ s.nextTok fn = .none ∨ (bit (byteAt x.bytes 1) 0 ∧ s.ringBusy fn) then
    s.setFn fn { s.fn fn with fetched := x :: (s.fn fn).fetched }
  else s.dispatch fn x (s.nextTok fn)

/-- A DISPATCH mark: the stored descriptor is read and accepted. -/
def State.actDispatch (s : State) (i : Nat) (m : Mark) : State :=
  let w := addrOf m.desc
  let r := s.readStored m.part w.tier w.addr
  ((r.1.delMark i).dispatchStored (m.part + 1) ⟨0, r.2.1, .mark, r.2.2⟩).markEvent evMrdMarkDone m []

/-- An EVENT mark. -/
def State.actEvent (s : State) (i : Nat) (m : Mark) : State :=
  ((s.delMark i).raise srcMeridian evMrdMark m.part (leBytes 4 m.tag)).markEvent evMrdMarkDone m []

/-- A MODE mark changes its item for what is issued from now on. -/
def State.actMode (s : State) (i : Nat) (m : Mark) : State :=
  let r := s.setMode m.item m.value
  r.2.setMark i { m with st := .applied, oldVal := r.1 }

/-- A PARTITION mark changes routing and ownership. -/
def State.actPartition (s : State) (i : Nat) (m : Mark) : State :=
  (s.applyLayout m.layout).setMark i { m with st := .applied, oldLay := s.layout }

/-- A FIRMWARE mark: every core runs slot B's image; the fallback mark: slot A's again. -/
def State.actFirmware (s : State) (i : Nat) (m : Mark) : State :=
  { s with fw := { s.fw with running := if m.fallback then 0 else 1 } }.setMark i { m with st := .applied, oldVal := s.fw.running }

/-- Every unit of a changed partition reads blank: its dispatch resumes (R319). -/
def execPartitionBlankDone (p : Nat) (s : State) : Res :=
  .next (if (s.part p).blanking then
      let s1 := s.setPart p { s.part p with blanking := false }
      if (List.range 32).any (fun q => (s1.part q).blanking) then s1
      else { s1 with mem := { s1.mem with busy := false, kind := 0 } }
    else s)

/-! ## PART_CONFIG (R317, R318, R53) -/

/-- The entry holds some resource. -/
def entryHolds (b : Bytes) (p : Nat) : Bool :=
  let e := layEntry b p
  le e 0 4 != 0 || le e 4 2 != 0 || le e 8 2 != 0 || le e 10 2 != 0 || le e 12 2 != 0

/-- Tier C units of the stepping. -/
def State.tierCUnits (s : State) : Nat := s.glb.tib * 32

/-- The fields of an entry (R317): ranges where the partition holds resources, reserved bytes always. -/
def State.entryFieldOk (s : State) (b : Bytes) (len p : Nat) : Bool :=
  let e := layEntry b p
  let n := le e 8 2 + le e 10 2 + le e 12 2
  zeroAt e 14 2 && zeroAt e 20 12 && (!entryHolds b p
    || (decide (22 ≤ le e 6 2) && decide (le e 6 2 ≤ 1024) && decide (le e 8 2 ≤ 512) && decide (le e 10 2 ≤ 384)
      && decide (le e 12 2 ≤ s.tierCUnits) && decide (1024 ≤ le e 16 4) && decide (le e 16 4 + 2 * n ≤ len)))

/-- No two entries of a list are equal. -/
def distinct : List Nat → Bool
  | [] => true
  | x :: xs => !xs.contains x && distinct xs

/-- The resources that a layout gives to partitions, each as a list with repeats. -/
def laySum (b : Bytes) (f : PartCfg → List Nat) : List Nat := (List.range 32).flatMap (fun p => f (layCfg b p))

/-- R318, with the layout in force for defective units. -/
def State.layoutOk (s : State) (b : Bytes) : Bool :=
  distinct (laySum b (fun c => bitsOf 32 c.pairs)) && distinct (laySum b (fun c => bitsOf 16 c.grus))
    && distinct (laySum b (fun c => c.tierA)) && distinct (laySum b (fun c => c.tierB)) && distinct (laySum b (fun c => c.tierC))
    && (laySum b (fun c => c.tierA)).all (fun u => decide (u < 512)) && (laySum b (fun c => c.tierB)).all (fun u => decide (u < 384))
    && (laySum b (fun c => c.tierC)).all (fun u => decide (u < s.tierCUnits))
    && (List.range 32).all (fun p =>
      let c := layCfg b p
      !c.enabled || (c.pairs != 0 && !c.tierA.isEmpty && !c.tierB.isEmpty))
    && (List.range 32).all (fun p => [0, 1].all (fun t => ((layCfg b p).units t).all (fun u =>
      !s.mem.defective.contains (t * 2 ^ 20 + u) || ((s.cfg p).units t).contains u)))

/-- The spill areas of every partition fit its tier A (R53). -/
def spillOk (b : Bytes) : Bool :=
  (List.range 32).all (fun p => decide ((layCfg b p).spillBytes ≤ (layCfg b p).tierA.length * 2 ^ 30))

/-- The status of a PART_CONFIG before its block is read. -/
def partConfigFieldOk (d : Bytes) : Bool :=
  zeroAt d 8 8 && zeroAt d 28 4 && zeroAt d 42 22 && (timeAt d 32).isSome && decide (1024 ≤ le d 24 4)

/-- The status of a PART_CONFIG with its layout block (R313). -/
def State.partConfigStatus (s : State) (o : Op) (b : Bytes) : Nat :=
  let t := (timeAt o.bytes 32).getD 0
  if !(List.range 32).all (fun p => s.entryFieldOk b b.length p) then stMrdField
  else if !s.layoutOk b then stMrdLayout
  else if s.freeMarks < 2 then stMrdFull
  else if s.wideNear t then stMrdConflict
  else if t < o.aux + 10 * msNs then stMrdMarkPast
  else if !spillOk b then stPnlSpillSpace
  else stOk

/-- PART_CONFIG: `layout` is what host memory returns. -/
def execPartConfig (op : Nat) (layout : Bytes) (s : State) : Res :=
  .next (onReady 0x90 op s (fun o =>
    if !partConfigFieldOk o.bytes then s.finish op stMrdField
    else if !s.reachable 0 then s.finish op stHifHostUnreachable
    else
      let b := slice layout 0 (le o.bytes 24 4)
      let st := s.partConfigStatus o b
      if st ≠ stOk then s.finish op st
      else
        let m := { plainMark ((timeAt o.bytes 32).getD 0) 8 0xFF 0 o.tag with layout := b }
        (s.addWide m).2.finish op stOk))

/-! ## PTP (R305, R306) -/

abbrev mrdFree : Nat := 0
abbrev mrdLocking : Nat := 1
abbrev mrdLocked : Nat := 2
abbrev mrdHoldover : Nat := 3

def State.setMrd (s : State) (m : Mrd) : State := { s with mrd := m }

/-- The domain of the profile in use: PTP_DOMAIN, or 0 under the default profile (R305). -/
def Mrd.domainNow (m : Mrd) : Nat := if m.profile = 1 then m.domain else 0

/-- A PTP message that the module takes: the PTP source, a port of PORT_MASK, the domain and transport of the profile. -/
def State.ptpOpen (s : State) (x : PtpFrom) : Bool :=
  s.isRun && s.mrd.source == 0 && bit s.mrd.ports x.src.port && x.domain == s.mrd.domainNow && (s.mrd.profile == 0 || x.udp)

/-- A message of the selected master. -/
def State.fromMaster (s : State) (x : PtpFrom) : Bool := s.ptpOpen x && s.mrd.master == some x.src

/-- Sync or pulse accepted: FREE and HOLDOVER move to LOCKING. -/
def Mrd.acceptSync (m : Mrd) : Mrd :=
  if m.st = mrdFree ∨ m.st = mrdHoldover then { m with st := mrdLocking, inBand := 0, outBand := 0 } else m

/-- An offset counted for the lock. -/
def Mrd.track (m : Mrd) (off : Int) : Mrd :=
  let near := decide (-100 ≤ off) && decide (off ≤ 100)
  let n := if near then m.inBand + 1 else 0
  let f := if near then 0 else m.outBand + 1
  if m.st = mrdLocking ∧ 16 ≤ n then { m with st := mrdLocked, inBand := 0, outBand := 0 }
  else if m.st = mrdLocked ∧ 16 ≤ f then { m with st := mrdLocking, inBand := 0, outBand := 0 }
  else { m with inBand := n, outBand := f }

/-- An offset measured: the lock state, then the correction, a step or a slew (R307). -/
def State.measure (s : State) (off : Int) : State :=
  let s2 := (s.setMrd (s.mrd.track off)).noteOffset off
  if s2.mrd.large ∧ s2.mrd.marks.isEmpty then
    { s2 with now := ((s2.now : Int) + off).toNat, mrd := { s2.mrd with stepped := true, slew := 0 } }
  else s2.setMrd { s2.mrd with slew := off }

/-- A Sync of the selected master: `origin` is its time of transmission for a one-step master. -/
def execPtpSyncReceive (src : PtpFrom) (origin : Nat) (twoStep : Bool) (s : State) : Res :=
  .next (if s.fromMaster src then
      let m := s.mrd.acceptSync
      if twoStep then s.setMrd { m with syncT1 := none, syncT2 := s.now }
      else (s.setMrd { m with syncT1 := some origin, syncT2 := s.now }).measure ((origin : Int) + m.delay - s.now)
    else s)

/-- The Follow_Up of a two-step Sync. -/
def execPtpFollowUpReceive (src : PtpFrom) (origin : Nat) (s : State) : Res :=
  .next (if s.fromMaster src ∧ s.mrd.syncT1.isNone ∧ s.mrd.st ≠ mrdFree then
      (s.setMrd { s.mrd with syncT1 := some origin }).measure ((origin : Int) + s.mrd.delay - s.mrd.syncT2)
    else s)

/-- A Delay_Req goes to the selected master. -/
def execPtpDelayReqTimer (s : State) : Res :=
  .next (match s.mrd.master with
    | some x =>
      if s.isRun ∧ s.mrd.source = 0 ∧ bit s.mrd.ports x.port then
        (s.setMrd { s.mrd with delayT3 := s.now }).put (.delayReq x.port)
      else s
    | none => s)

/-- The Delay_Resp with the master's time of reception: the mean path delay. -/
def execPtpDelayRespReceive (src : PtpFrom) (received : Nat) (s : State) : Res :=
  .next (match s.mrd.syncT1 with
    | none => s
    | some t1 =>
      if s.fromMaster src then
        s.setMrd { s.mrd with
          delay := (((s.mrd.syncT2 : Int) - t1) + ((received : Int) - s.mrd.delayT3)) / 2 }
      else s)

/-! ### The best master clock algorithm (R305, notes/assumptions/77.md) -/

/-- Seconds between Announces under the profile in use. -/
def Mrd.announceGap (m : Mrd) : Nat := if m.profile = 1 then nsPerSec else 2 * nsPerSec

/-- The order of two lists of one length. -/
def listBefore : List Nat → List Nat → Bool
  | x :: xs, y :: ys => decide (x < y) || (x == y && listBefore xs ys)
  | _, _ => false

/-- The attributes of a grandmaster in the order in which the standard compares them. -/
def ptpQuality (d : PtpData) : List Nat :=
  [d.prio1.toNat, d.cls.toNat, d.accuracy.toNat, d.variance.toNat, d.prio2.toNat, d.master.toNat]

/-- `a` is the better master: of two grandmasters the better one, of one grandmaster the shorter path, then the lower port. -/
def Foreign.better (a b : Foreign) : Bool :=
  if a.data.master ≠ b.data.master then listBefore (ptpQuality a.data) (ptpQuality b.data)
  else listBefore [a.data.steps.toNat, a.from_.sender.toNat, a.from_.port] [b.data.steps.toNat, b.from_.sender.toNat, b.from_.port]

/-- Two Announces within the window of four intervals, the last of them within the last four: a candidate. -/
def Mrd.candidate (m : Mrd) (now : Nat) (x : Foreign) : Bool :=
  (match x.before with
    | some t => decide (x.heard ≤ t + 4 * m.announceGap)
    | none => false) && decide (now ≤ x.heard + 4 * m.announceGap)

/-- The best candidate at a port of PORT_MASK. -/
def Mrd.bestMaster (m : Mrd) (now : Nat) : Option Foreign :=
  (m.foreign.filter (fun x => m.candidate now x && bit m.ports x.from_.port)).foldl (fun a x => match a with
    | some y => if x.better y then some x else a
    | none => some x) none

/-- The port of the best candidate becomes the master; a new master starts with no measurement. -/
def Mrd.selectMaster (m : Mrd) (now : Nat) : Mrd :=
  match m.bestMaster now with
  | none => m
  | some x =>
    if m.master = some x.from_ then { m with announceAt := x.heard }
    else { m with master := some x.from_, port := x.from_.port, announceAt := x.heard, syncT1 := none, syncT2 := 0, delay := 0 }

/-- An Announce noted. -/
def Mrd.hear (m : Mrd) (now : Nat) (src : PtpPort) (d : PtpData) : Mrd :=
  let old := m.foreign.find? (fun x => x.from_ == src)
  let m1 : Mrd := { m with foreign := ⟨src, d, now, old.map (·.heard)⟩ :: m.foreign.filter (fun x => x.from_ != src) }
  if m1.master = some src then { m1 with announceAt := now } else m1

/-- An Announce: the best master clock algorithm runs over the ports that have announced themselves. -/
def execPtpAnnounceReceive (src : PtpFrom) (data : PtpData) (s : State) : Res :=
  .next (if s.ptpOpen src then s.setMrd ((s.mrd.hear s.now src.src data).selectMaster s.now) else s)

/-- The announce receipt timeout: 3 intervals. -/
def Mrd.announceLimit (m : Mrd) : Nat := 3 * m.announceGap

/-- STATE moves to HOLDOVER. -/
def Mrd.hold (m : Mrd) : Mrd := if m.st = mrdFree then m else { m with st := mrdHoldover, inBand := 0, outBand := 0 }

/-- The selected master is no longer announced, whether its port may still carry PTP or not: HOLDOVER (R306). -/
def execPtpAnnounceTimeout (s : State) : Res :=
  .next (match s.mrd.master with
    | some x =>
      if s.isRun ∧ s.mrd.source = 0 then
        let s1 := s.atLeast (s.mrd.announceAt + s.mrd.announceLimit)
        s1.setMrd { s1.mrd.hold with master := none, syncT1 := none, foreign := s1.mrd.foreign.filter (fun y => y.from_ != x) }
      else s
    | none => s)

/-! ## Pulse per second (R306, R380) -/

/-- A rising edge on PPS_IN. -/
def execPpsInEdge (s : State) : Res :=
  .next (if s.isRun ∧ s.mrd.source = 1 then
      (s.setMrd { s.mrd.acceptSync with ppsAt := some s.now }).measure (toSecond s.now)
    else s)

/-- No pulse for 3 s. -/
def execPpsMissingTimeout (s : State) : Res :=
  .next (match s.mrd.ppsAt with
    | some t =>
      if s.isRun ∧ s.mrd.source = 1 then
        let s1 := s.atLeast (t + 3 * nsPerSec)
        s1.setMrd { s1.mrd.hold with ppsAt := none }
      else s
    | none => s)

/-- PPS_OUT rises at the next Meridian second, and falls 1 ms into it. -/
def execPpsOutSecond (s : State) : Res :=
  .next (if !s.isRun then s
    else if s.mrd.ppsOut then
      let s1 := if nanosOf s.now < msNs then s.atLeast (s.now - nanosOf s.now + msNs) else s
      s1.setMrd { s1.mrd with ppsOut := false }
    else
      let s1 := s.atLeast (if nanosOf s.now = 0 then s.now else s.now - nanosOf s.now + nsPerSec)
      s1.setMrd { s1.mrd with ppsOut := true })

/-! ## MRD_CFG (R304, R306) -/

/-- A write of MRD_CFG by the PF; reserved values leave their field. A change of SOURCE starts again at FREE. -/
def execMrdCfgWrite (v : Word) (s : State) : Res :=
  .next (if !s.isRun then s
    else
      let n := v.toNat
      let prof := field n 14 2
      let src := field n 12 2
      let m := { s.mrd with
        domain := field n 24 8, ports := field n 16 8, profile := if prof < 2 then prof else s.mrd.profile }
      if src = 3 ∨ src = m.source then s.setMrd m
      else s.setMrd { m with
        source := src, st := mrdFree, inBand := 0, outBand := 0, slew := 0, master := none, foreign := [], syncT1 := none, delay := 0
        ppsAt := none })

end Sys2Proof.Machine
end

