-- ==== Sys2Proof/Machine/Gru.lean ====
section
/-! DEFINITION. The descriptors of the Gate Refresh Units and the end of a batch (R170, R180 to R188). -/

namespace Sys2Proof.Machine

/-! ## Areas (R187) -/

/-- An area of partition `p` that R187 accepts: a plain address of its units that overlaps nothing locked. -/
def State.gruArea (s : State) (p : Nat) (a : AddrWord) (n : Nat) : Bool :=
  a.plain && s.inUnits p a.tier a.addr n && !s.aggLocked p a.tier a.addr n && !s.gruLocked p a.tier a.addr n

/-- A GRU_RUN of function `fn`, dispatched and not complete, other than `op`, that `sel` names (R187). -/
def State.runNames (s : State) (fn op : Nat) (sel : Op → Bool) : Bool :=
  s.ops.any (fun (e : Nat × Op) => e.1 != op && e.2.fn == fn && e.2.opcode == 0x52 && e.2.phase != .done && sel e.2)

/-- The contents of a released key set are open: what the conversion left (R170). A poisoned line of the area stays so. -/
def State.openArea (s : State) (p : Nat) (k : KeySet) : State :=
  let f := s.freeBytes k.len
  (linesOf k.base k.len).foldl (fun s ln =>
    if s.poisoned k.tier (s.phys p k.tier (ln * 64)) then s
    else State.putBytes p k.tier (linePiece k.base f.1 ln).1 (linePiece k.base f.1 ln).2 s) f.2

/-! ## Key sets -/

/-- The checks of GRU_KEYSET before the key set is read. -/
def State.keysetStatus (s : State) (p : Nat) (d : Bytes) : Nat :=
  let a := addrAt d 16
  let id := le d 8 2
  match gruSet (byteAt d 10) with
  | none => stGruParam
  | some g =>
    if le d 24 8 ≠ g.total then stGruKeyFormat
    else if 4096 ≤ id ∨ (s.keyset p id).isSome then stGruId
    else if a.addr % 4096 ≠ 0 ∨ !s.gruArea p a g.total then stGruSpace
    else stOk

/-- Every BK coefficient of the key set that a descriptor names is canonical. -/
def State.keysCanonical (s : State) (p : Nat) (d : Bytes) : Bool :=
  let a := addrAt d 16
  match gruSet (byteAt d 10) with
  | none => false
  | some g => (List.range (g.bk / 8)).all (fun i => decide (s.keyWord p ⟨0, a.tier, a.addr, 0⟩ (8 * i) < qMod))

/-- GRU_KEYSET without RELEASE. -/
def execGruKeyset (op : Nat) (s : State) : Res :=
  .next (onReady 0x50 op s (fun o =>
    let p := o.fn - 1
    let d := o.bytes
    if bit (byteAt d 11) 0 then s
    else
      let st := s.keysetStatus p d
      if st ≠ stOk then s.finish op st
      else
        let a := addrAt d 16
        let m := s.scan p a.tier a.addr (le d 24 8)
        if !m.2.good then m.1.finish op m.2.status
        else if !m.1.keysCanonical p d then m.1.finish op stGruKeyFormat
        else
          { m.1 with
            keysets := tset (p * 4096 + le d 8 2) ⟨byteAt d 10, a.tier, a.addr, le d 24 8⟩ m.1.keysets }.finish op m.2.status))

/-- GRU_KEYSET with RELEASE. -/
def execGruKeysetRelease (op : Nat) (s : State) : Res :=
  .next (onReady 0x50 op s (fun o =>
    let p := o.fn - 1
    let id := le o.bytes 8 2
    if !bit (byteAt o.bytes 11) 0 then s
    else match s.keyset p id with
      | none => s.finish op stGruId
      | some k =>
        if s.runNames o.fn op (fun r => le r.bytes 10 2 == id) then s.finish op stGruBusy
        else ({ s with keysets := tdel (p * 4096 + id) s.keysets }.openArea p k).finish op stOk))

/-! ## Programs -/

/-- The header of an image (R178). -/
def progHeaderOk (h : Bytes) (g : GateProg) : Bool :=
  byteAt h 0 == 1 && zeroAt h 2 2 && zeroAt h 20 4 && zeroAt h 52 12
    && decide (1 ≤ g.nin) && decide (g.nin ≤ 65536) && decide (g.nconst ≤ 2 ^ 24) && decide (1 ≤ g.ngate)
    && decide (g.nin + g.nconst + g.ngate ≤ 2 ^ 24) && decide (1 ≤ g.nout) && decide (g.nout ≤ 65536)

/-- A constant wire. -/
def GateProg.isConst (g : GateProg) (w : Nat) : Bool := decide (g.nin ≤ w) && decide (w < g.nin + g.nconst)

/-- Gate `k` keeps R179 and R180. -/
def gateOk (g : GateProg) (k : Nat) (r : GateRec) : Bool :=
  let own := g.nin + g.nconst + k
  let one := r.gate == 0 || r.gate == 1 || r.gate == 0xE
  r.gate != 0xF && r.spare == 0 && decide (r.a < own) && (if one then r.b == 0 else decide (r.b < own))
    && (if r.gate = 0xD then decide (r.sel < own) else r.sel == 0)
    && (r.gate != 2 || (g.isConst r.b && !g.isConst r.a))

/-- The gates and outputs of an image (R180). -/
def State.gatesOk (s : State) (p : Nat) (g : GateProg) : Bool :=
  (List.range g.ngate).all (fun k => gateOk g k (s.gateAt p g k))
    && (List.range g.nout).all (fun k =>
      let w := s.outputAt p g k
      decide (w < g.nin + g.nconst + g.ngate) && !g.isConst w)

/-- The checks of GRU_PROGRAM before the image is read. -/
def State.programFirst (s : State) (p : Nat) (d : Bytes) : Nat :=
  if (tfind s.progs (p * 256 + byteAt d 8)).isSome then stGruId
  else if !s.gruArea p (addrAt d 16) (le d 24 8) then stGruSpace
  else stOk

/-- The checks of the image that a GRU_PROGRAM names, and the program. -/
def State.programStatus (s : State) (p : Nat) (d : Bytes) : Nat × GateProg :=
  let a := addrAt d 16
  let n := le d 24 8
  let h := s.ptBytes p a.tier a.addr 64
  let g := progOf (byteAt d 9) a.tier a.addr n h []
  let st :=
    if n < 64 then stGruFormat
    else if (gruSet g.param).isNone then stGruParam
    else if !progHeaderOk h g ∨ n ≠ g.imageLen then stGruFormat
    else if !s.gatesOk p g then stGruGate
    else stOk
  (st, { g with digest := sha384 (s.ptBytes p a.tier a.addr n) })

/-- GRU_PROGRAM without RELEASE. -/
def execGruProgram (op : Nat) (s : State) : Res :=
  .next (onReady 0x51 op s (fun o =>
    let p := o.fn - 1
    let d := o.bytes
    if bit (byteAt d 10) 0 then s
    else
      let st := s.programFirst p d
      if st ≠ stOk then s.finish op st
      else
        let m := s.scan p (addrAt d 16).tier (addrAt d 16).addr (le d 24 8)
        let r := m.1.programStatus p d
        if !m.2.good then m.1.finish op m.2.status
        else if r.1 ≠ stOk then m.1.finish op r.1
        else { m.1 with progs := tset (p * 256 + byteAt d 8) r.2 m.1.progs }.finish op m.2.status))

/-- GRU_PROGRAM with RELEASE. -/
def execGruProgramRelease (op : Nat) (s : State) : Res :=
  .next (onReady 0x51 op s (fun o =>
    let k := (o.fn - 1) * 256 + byteAt o.bytes 8
    if !bit (byteAt o.bytes 10) 0 then s
    else match tfind s.progs k with
      | none => s.finish op stGruId
      | some _ =>
        if s.runNames o.fn op (fun r => byteAt r.bytes 8 == byteAt o.bytes 8) then s.finish op stGruBusy
        else { s with progs := tdel k s.progs }.finish op stOk))

/-! ## Runs -/

/-- A run of the partition is in progress, or an earlier GRU_RUN of it waits (R183). -/
def State.runBehind (s : State) (p fn op : Nat) : Bool :=
  (tfind s.gruRuns p).isSome
    || s.ops.any (fun (e : Nat × Op) => decide (e.1 < op) && e.2.fn == fn && e.2.opcode == 0x52 && e.2.phase == .ready)

/-- The plaintext of the constant section (R178). -/
def State.constants (s : State) (c : GruCtx) : Option Bytes :=
  let g := c.prog
  let img := s.imageBytes c.p g
  gcmOpen (s.slot g.slot).key (img 24 12) (img 0 24 ++ img 64 (16 * g.ngate + g.outBytes)) (img g.constAt (ceilDiv g.nconst 8))
    (img 36 16)

/-- The checks of a GRU_RUN whose program and key set are defined, before its image is read. -/
def State.runStatus (s : State) (c : GruCtx) : Nat :=
  if c.prog.param ≠ c.keys.param then stGruParam
  else if (s.onlineGrus c.p).isEmpty then stGruNone
  else if !s.gruArea c.p c.inA (c.prog.nin * c.set.ct) ∨ !s.gruArea c.p c.wires (c.prog.ngate * c.set.ct)
      ∨ c.wires.tier ≠ 0 ∨ !s.gruArea c.p c.outA (c.prog.nout * c.set.ct) then stGruSpace
  else if !(s.slot c.prog.slot).usable engGru c.p then stGruKeySlot
  else stOk

/-- GRU_RUN. -/
def execGruRun (op : Nat) (s : State) : Res :=
  .next (onReady 0x52 op s (fun o =>
    let p := o.fn - 1
    if s.runBehind p o.fn op then s
    else match s.gruCtx p o.bytes with
      | none => s.finish op stGruId
      | some c =>
        let st := s.runStatus c
        let m := s.scan p c.prog.tier c.prog.base c.prog.len
        if st ≠ stOk then s.finish op st
        else if !m.2.good then m.1.finish op m.2.status
        else match m.1.constants c with
        | none => m.1.finish op stGruConstAuth
        | some plain =>
          let consts := (List.range c.prog.nconst).map (fun i => bit (byteAt plain (i / 8)) (i % 8))
          let run : GruRun := ⟨op, byteAt o.bytes 8, le o.bytes 10 2, bit (byteAt o.bytes 9) 0, consts, [], 0⟩
          let s1 := { m.1 with gruRuns := tset p run m.1.gruRuns }.running op o
          (s1.noteRun p m.2.status).settleGru p))

/-! ## The end of a batch -/

/-- The results of the gates of a batch written to their WIRES entries. -/
def State.gateResults (c : GruCtx) (consts : List Bool) : List Nat → State → State
  | [], s => s
  | k :: ks, s =>
    let r := s.gateAt c.p c.prog k
    let v := s.wireVal c consts c.fuel
    let x := gateResult c.set (s.bkRow c.p c.keys c.set) (s.kskAt c.p c.keys c.set) r.gate (v r.a) (v r.b) (v r.sel)
    let w := s.memWrite c.p c.wires.tier (c.wires.addr + k * c.set.ct) (lweBytes c.set.ct x)
    State.gateResults c consts ks (w.1.noteRun c.p w.2.status)

/-- CNT_GRU_STALL_KEY: the stream term of R177 is the larger at the full rate of 64 GB/s, or, where the rate that the GRU
receives decides, by a value that nothing constrains (notes/assumptions/46.md). -/
def State.countStall (s : State) (c : GruCtx) (slots : Nat) : State :=
  if slots * c.set.cycles * 80 < c.set.bk + c.set.ksk then s.countPart c.p cntGruStallKey
  else
    let f := s.freeBool
    if f.1 then f.2.countPart c.p cntGruStallKey else f.2

/-- A batch that ended: its results, its bootstraps counted. -/
def State.finishBatch (s : State) (c : GruCtx) (r : GruRun) (gru : Nat) : State :=
  let x := tget gruInit s.grus gru
  let s1 := State.gateResults c r.consts x.batch s
  let s2 := onRep (Rep.count (some c.p) cntGruBootstraps x.slots) (s1.countStall c x.slots)
  { s2 with
    gruRuns := tset c.p { r with done := r.done ++ x.batch, boots := r.boots + x.slots } s2.gruRuns
    grus := tset gru { x with param := 0, batch := [], slots := 0 } s2.grus }.settleGru c.p

/-- A GRU finishes its batch. `err`: the residue check of R188 failed and its retry passed or failed. -/
def execGruBatchDone (gru : Nat) (err : Option ErrClass) (s : State) : Res :=
  .next (match s.gruPart gru with
    | none => s
    | some p =>
      match (tfind s.gruRuns p).bind (fun r => (s.op r.op).bind (fun o => (s.gruCtx p o.bytes).map (fun c => (r, c)))) with
      | none => s
      | some (r, c) =>
        if (tget gruInit s.grus gru).batch.isEmpty then s
        else match err with
          | some .lasting =>
            (((s.countError (some p) cntLasting).noteRun p stLastingGru).gruOut gru).settleGru p
          | some .transient => ((s.countError (some p) cntTransient).noteRun p stTransientGru).finishBatch c r gru
          | _ => s.finishBatch c r gru)

end Sys2Proof.Machine
end

