-- ==== Sys2Proof/Machine/Marks.lean ====
section
/-! DEFINITION. The Graticule acts (R309, R311, R315): every entry whose time has come, in order; the rows of the marks; the
end of an applied window; the idle step. -/

namespace Sys2Proof.Machine

/-! ## Entries act (R309) -/

/-- Entry `i` acts: a round's mark frees its entry (R310), a module-wide one stays APPLIED (R311). -/
def State.actEntry (s : State) (i : Nat) (m : Mark) : State :=
  let r := 2 * m.part + m.slot
  match m.action with
  | 1 => (s.delMark i).admitClose r
  | 2 => (s.delMark i).completeRound r
  | 3 => (s.delMark i).sealRound r
  | 4 => (s.delMark i).decideRelease r
  | 5 => s.actDispatch i m
  | 6 => s.actEvent i m
  | 7 => s.actMode i m
  | 8 => s.actPartition i m
  | _ => s.actFirmware i m

/-- The first participant of a mark that is not ARMED (R314). -/
def State.notArmed (s : State) (m : Mark) : Nat := ((s.participants m).find? (fun u => !m.armed.contains u)).getD 0

/-- An entry at its time: it acts, or it is aborted where it is not ARMED (R314). -/
def State.meetEntry (s : State) (e : Nat × Mark) : State :=
  if e.2.st = .armed then s.actEntry e.1 e.2 else s.abortMark e.1 e.2 (s.notArmed e.2)

/-- Every entry whose time has come, in order; `fuel` bounds their number. -/
def State.actDue : Nat → State → State
  | 0, s => s
  | fuel + 1, s =>
    match s.nextMark with
    | some e => if s.isRun ∧ e.2.time ≤ s.now then State.actDue fuel (s.meetEntry e) else s
    | none => s

/-- The entries whose time has come have acted. -/
def State.marksActed (s : State) : State := s.actDue s.mrd.marks.length

/-- An entry acts as a command names it: it is ARMED and next, and time reaches it; the others of its time act with it. -/
def State.actNamed (s : State) (e : Option (Nat × Mark)) : State :=
  match e with
  | none => s
  | some (i, m) => if s.markNext m then ({ s with now := max s.now m.time }.actEntry i m).marksActed else s

def execAdmitClose (p slot : Nat) (s : State) : Res := .next (s.actNamed (s.roundMark p slot 1))

def execComplete (p slot : Nat) (s : State) : Res := .next (s.actNamed (s.roundMark p slot 2))

def execSeal (p slot : Nat) (s : State) : Res := .next (s.actNamed (s.roundMark p slot 3))

def execRelease (p slot : Nat) (s : State) : Res := .next (s.actNamed (s.roundMark p slot 4))

/-- The entry when it holds a mark of an action. -/
def State.entryOf (s : State) (entry action : Nat) (fallback : Bool) : Option (Nat × Mark) :=
  match s.mark entry with
  | some m => if m.action = action ∧ m.fallback = fallback then some (entry, m) else none
  | none => none

def execDispatchMark (entry : Nat) (s : State) : Res := .next (s.actNamed (s.entryOf entry 5 false))

def execEventMark (entry : Nat) (s : State) : Res := .next (s.actNamed (s.entryOf entry 6 false))

def execModeMark (entry : Nat) (s : State) : Res := .next (s.actNamed (s.entryOf entry 7 false))

def execPartitionMark (entry : Nat) (s : State) : Res := .next (s.actNamed (s.entryOf entry 8 false))

def execFirmwareMark (entry : Nat) (s : State) : Res := .next (s.actNamed (s.entryOf entry 9 false))

def execFallbackMark (entry : Nat) (s : State) : Res := .next (s.actNamed (s.entryOf entry 9 true))

/-! ## The applied window (R315) -/

/-- The time at which the applied window of a mark ends. -/
def Mark.windowEnd (m : Mark) : Nat := m.time + 1 * msNs

/-- A LASTING fault of a participant handled under R26: of a core by R367, of a unit that rounds rest on by R112. -/
def State.unitFault (s : State) (unit : Nat) : State :=
  match coreOf unit with
  | some c => s.coreFault c 1 .lasting
  | none => (s.countError (s.unitPart unit) cntLasting).shardUnitFault unit

/-- A mark rolled back on the request of `unit`: every participant restores its state, then the fault is handled. -/
def State.rollBack (s : State) (i : Nat) (m : Mark) (unit : Nat) : State :=
  (((s.rollback m).dropMark i m).markEvent evMrdRolledBack m (leBytes 2 unit)).unitFault unit

/-- A participant that faults again during the rollback is taken out of service (R315). -/
def State.faultAgain (s : State) (m : Mark) (unit : Nat) : State :=
  ((s.countError (s.unitPart unit) cntLasting).unitOut unit).markEvent evMrdRollbackFault m (leBytes 2 unit)

/-- The end of the applied window: rollback on the request of a participant, DONE without one. `again` is a participant
that faulted again while it rolled back. Entries that a FIRMWARE mark held back act now (R363). -/
def execMarkRollbackWindowEnd (entry : Nat) (fault again : Option (BitVec 16)) (s : State) : Res :=
  .next (match s.mark entry with
    | none => s
    | some m =>
      let rb := { m with time := m.windowEnd }
      if s.isRun ∧ m.st = .applied ∧ !s.markBehind rb then
        let s1 := s.atLeast m.windowEnd
        match fault with
        | some u =>
          if (s.participants m).contains u.toNat then
            let s2 := s1.rollBack entry m u.toNat
            (match again with
              | some v => if (s.participants m).contains v.toNat then s2.faultAgain m v.toNat else s2
              | none => s2).marksActed
          else s
        | none => (((s1.markDone m).dropMark entry m).markEvent evMrdMarkDone m []).marksActed
      else s)

/-! ## The idle step -/

/-- A step on an empty queue: the background scrub of aborted rounds runs (R115), and one tick of the Meridian passes; entries
whose time it reaches act (R309, notes/assumptions/1.md). -/
def idle (s : State) : State :=
  let s1 := s.scrubRounds
  let t := s1.tick
  match s1.nextMark with
  | some e => if s1.isRun ∧ e.2.time ≤ t.now then { t with now := max s1.now e.2.time }.marksActed else t
  | none => t

end Sys2Proof.Machine
end

