-- ==== Sys2Proof/Machine/Memory.lean ====
section
/-! DEFINITION. The commands of tiers A and B: the patrol (R203) and the error latch (R213). -/

namespace Sys2Proof.Machine

/-- Bytes of a tier (R190): 512 GiB, and 1,600 GiB with the system area. -/
def tierBytes (tier : Nat) : Nat := if tier = 0 then 512 * 2 ^ 30 else 1600 * 2 ^ 30

/-- The patrol reads the line at physical address `line`, in which an error may have arisen: it corrects and counts under
R199, poisons under R200 (R203). A line that is poisoned already stays as it is. -/
def execMemPatrolTick (tier line : Nat) (err : Option ErrClass) (s : State) : Res :=
  .next (if !s.isRun ∨ 2 ≤ tier ∨ tierBytes tier ≤ line ∨ s.poisoned tier line then s
    else
      let s1 := match err with
        | some cls => s.arise [⟨tier, line, cls⟩]
        | none => s
      s1.meetLine ((s.partAddr tier line).map (·.1)) tier (line / 64 * 64))

/-- MEM_ERR_INFO.VALID written with 1 frees the latch (R213). -/
def execMemErrInfoClear (fn : Nat) (s : State) : Res :=
  .next (if !s.isRun then s
    else if fn = 0 then { s with mem := { s.mem with errPf := { s.mem.errPf with valid := false } } }
    else { s with
      mem := { s.mem with errVf := tmod errInit (fn - 1) (fun (e : ErrLatch) => { e with valid := false }) s.mem.errVf } })

end Sys2Proof.Machine
end

