-- ==== Sys2Proof/Machine/RegRead.lean ====
section
/-! DEFINITION. What each register reads as, function by function: the block map of R5 and R249, the field maps of the
chapters, and the views of a VF (R250). -/

namespace Sys2Proof.Machine

/-- A register from its fields: lowest bit and value of each. -/
def pack (l : List (Nat × Nat)) : Nat := (l.map (fun (e : Nat × Nat) => e.2 * 2 ^ e.1)).sum

/-! ## GLB (R2, R20, R21, R321) -/

def State.glbId (s : State) : Nat := pack [(24, 0x60), (16, s.glb.tib), (12, s.sec.lifecycle), (0, s.glb.step)]

def State.glbPart0 (s : State) (p : Nat) : Nat :=
  let c := s.cfg p
  pack [(31, b2n c.enabled), (25, popcount 32 c.pairs), (20, popcount 16 c.grus), (10, c.tierA.length)]

def State.glbPart1 (s : State) (p : Nat) : Nat := pack [(18, (s.cfg p).tierB.length), (9, (s.cfg p).tierC.length)]

def State.detStat (s : State) (fn : Nat) : Nat := if fn = 0 then s.glb.detPf else tget 0 s.glb.detVf (fn - 1)

def State.readGlb (s : State) (fn off : Nat) : Nat :=
  if off = 0x0 then s.glbId
  else if off = 0x4 then (if fn = 0 then b2n s.glb.det else 0)
  else if off = 0x8 then s.detStat fn
  else
    let p := if fn = 0 then (off - 0x100) / 0x10 else fn - 1
    let r := if fn = 0 then (off - 0x100) % 0x10 else off - 0x100
    if 0x100 ≤ off ∧ off < 0x300 then (if r = 0 then s.glbPart0 p else if r = 4 then s.glbPart1 p else 0) else 0

/-! ## HIF (R272) -/

def Rings.code : Rings → Nat
  | .disabled => 0 | .active => 1 | .detached => 2 | .deleting => 3

def Tdi.code : Tdi → Nat
  | .unlocked => 0 | .locked => 1 | .run => 2 | .error => 3

def State.hifStat (s : State) (fn : Nat) : Nat :=
  let h := s.fn fn
  pack [(30, h.rings.code), (27, h.cause), (25, h.tdi.code), (24, b2n (fn != 0 && s.enabled (fn - 1)))]

def CmdWin.stat (w : CmdWin) : Nat := pack [(31, b2n w.busy), (30, b2n w.lost), (0, w.opcode)]

def State.readHif (s : State) (fn off : Nat) : Nat :=
  let h := s.fn fn
  let w := h.win
  if off < 0x40 then (tget 0 w.words (off / 4)).toNat
  else if off = 0x44 then w.stat
  else if 0x60 ≤ off ∧ off < 0x80 then le w.result (off - 0x60) 4
  else if 0x80 ≤ off ∧ off < 0xA0 then le w.heldRec (off - 0x80) 4
  else if off = 0xA0 then pack [(31, b2n w.heldValid), (30, b2n w.heldReplaced)]
  else if off = 0x100 then s.hifStat fn
  else if off = 0x104 then h.hbMs
  else if off = 0x108 then h.hbVal.toNat
  else if off = 0x110 then h.rs.sqTail
  else if off = 0x114 then h.rs.cqHead
  else if off = 0x118 then h.rs.eqHead
  else if off = 0x11C then h.rs.sqHead
  else if off = 0x120 then pack [(16, h.heldE.length), (0, h.heldC.length)]
  else 0

/-! ## PNL, GRU (R70, R189, R250, R321) -/

/-- The partition field of a unit: 0xFF where unassigned. -/
def ownerCode (o : Option Nat) : Nat := o.getD 0xFF

def State.pnlStat (s : State) (fn n : Nat) : Nat :=
  let x := tget panelInit s.panels n
  if fn ≠ 0 ∧ s.panelPart n ≠ some (fn - 1) then 0x00FFFCFF
  else pack [(17, x.remapped), (10, x.orphan), (8, x.health), (0, ownerCode (s.panelPart n))]

def State.readPnl (s : State) (fn off : Nat) : Nat :=
  let n := off / 0x4000
  let r := off % 0x4000
  if 64 ≤ n then 0
  else if r = 0 then s.pnlStat fn n
  else if r = 4 then
    match s.panelPart n with
    | some p => if fn = 0 ∨ fn = p + 1 then (s.cfg p).scratch else 0
    | none => 0
  else 0

def State.gruStat (s : State) (fn g : Nat) : Nat :=
  let x := tget gruInit s.grus g
  if fn ≠ 0 ∧ s.gruPart g ≠ some (fn - 1) then 0x00FF0000
  else pack [(16, ownerCode (s.gruPart g)), (14, b2n x.offline), (12, if x.batch.isEmpty then 0 else x.param), (0, x.slots)]

/-! ## AGG (R120) -/

def State.readRound (s : State) (r off : Nat) : Nat :=
  let x := s.round r
  if x.st = .idle then 0
  else if off = 0x0 then pack [(24, if x.st = .aborted then x.cause else 0), (0, x.st.code)]
  else if off = 0x4 then pack [(7, x.pol.minCohort), (3, x.pol.errB), (2, b2n x.pol.ring64)]
  else if off = 0x8 then x.cohort
  else if off = 0xC then x.incomplete
  else if off = 0x10 then pack [(8, min 255 x.rejected), (0, x.accepted)]
  else if off = 0x14 then x.pol.tag
  else if 0x20 ≤ off ∧ off < 0x50 then le x.digest (off - 0x20) 4
  else if 0x60 ≤ off ∧ off < 0x80 ∧ x.wasOpen then le x.mseed (off - 0x60) 4
  else 0

/-- A partition and the offset in its registers, for registers that a VF has at the base. -/
def ownPart (fn off size : Nat) : Nat × Nat := if fn = 0 then (off / size, off % size) else (fn - 1, off)

def State.readAgg (s : State) (fn off : Nat) : Nat :=
  let e := ownPart fn off 0x1000
  if 32 ≤ e.1 ∨ 0x1000 ≤ e.2 then 0 else s.readRound (2 * e.1 + e.2 / 0x800) (e.2 % 0x800)

/-! ## ING (R163) -/

def State.readIng (s : State) (fn off : Nat) : Nat :=
  let e := ownPart fn off 0x400
  let g := tget ingestInit s.ingest e.1
  if 32 ≤ e.1 then 0
  else if e.2 = 0x0 then g.cut
  else if e.2 = 0x8 then
    pack [(31, b2n (s.ingFull e.1)), (30, b2n (s.fab.rx.any (fun (x : Nat × RxEntry) => x.2.part == e.1 && x.2.queue == 0
      && x.2.st == .opened && x.2.drop == 1))), (0, g.queue.length % 65536)]
  else if e.2 = 0xC then g.istat
  else if e.2 = 0x10 then g.ien.toNat
  else if e.2 = 0x20 then g.first0.toNat
  else if e.2 = 0x24 then g.first1.toNat
  else if e.2 = 0x28 then g.first2.toNat
  else if e.2 = 0x2C then g.first3.toNat
  else 0

/-! ## LOOM, SHC (R144) -/

def State.readLoom (s : State) (off : Nat) : Nat :=
  if off = 0x0 then pack [(26, s.loom.round), (25, b2n s.loom.busy), (24, b2n s.loom.stalled)]
  else if off = 0x8 then s.loom.words % 2 ^ 32
  else if off = 0x100 then
    pack [(26, s.shc.round), (25, b2n s.shc.busy), (17, s.shc.opened),
      (10, (s.rounds.filter (fun (e : Nat × Round) => e.2.wants)).length)]
  else 0

/-! ## MEM (R211, R212) -/

/-- The latch that a function reads. -/
def State.errLatch (s : State) (fn : Nat) : ErrLatch := if fn = 0 then s.mem.errPf else tget errInit s.mem.errVf (fn - 1)

/-- Defective units of a tier. -/
def State.defectCount (s : State) (tier : Nat) : Nat := (s.mem.defective.filter (fun u => u / 2 ^ 20 == tier)).length

/-- Progress of the blank or scrub that runs: some value of 0 to 100, which the spec leaves to the hardware
(notes/assumptions/73.md). -/
def State.scrubPercent (s : State) : Nat := if s.mem.busy then Config.scrubPercent s.now % 101 else 0

def State.readMem (s : State) (fn off : Nat) : Nat :=
  let e := s.errLatch fn
  if off = 0x10 then e.addr % 2 ^ 32
  else if off = 0x18 then pack [(31, b2n e.valid), (30, e.tier), (16, e.part), (0, e.status)]
  else if fn ≠ 0 then 0
  else if off = 0x0 then pack [(8, s.mem.patrolB), (0, s.mem.patrolA)]
  else if off = 0x4 then pack [(31, b2n s.mem.busy), (29, s.mem.kind), (0, s.scrubPercent)]
  else if off = 0x8 then pack [(10, s.defectCount 0), (0, s.defectCount 1)]
  else 0

/-! ## FLC (R246) -/

def State.readFlc (s : State) (fn off : Nat) : Nat :=
  if off = 0x0 then pack [(29, s.flc.st), (28, b2n s.flc.dumpInc), (0, s.flc.torn)]
  else if off = 0x4 then pack [(26, s.flc.budget), (12, ceilDiv s.dirty 1048576), (0, s.flc.energy)]
  else if fn ≠ 0 then 0
  else if off = 0x8 then s.flc.patrol
  else if off = 0xC then
    pack [(16, ((List.range dieCount).filter (fun d => (s.die d).readOnly)).length),
      (0, s.spareBlocks * 10000 / (dieCount * s.dieBlocks))]
  else 0

/-! ## FAB (R303) -/

def State.fabPartStat (s : State) (p : Nat) : Nat :=
  pack [(20, (s.fab.windows.filter (fun (e : Nat × Window) => e.1 / 2048 == p && e.2.live)).length),
    (7, (s.fab.armed.filter (fun (a : Armed) => a.part == p)).length),
    (0, (s.fab.queues.filter (fun (e : Nat × RxQueue) => e.1 / 64 == p)).length)]

def State.readFab (s : State) (fn off : Nat) : Nat :=
  if 0x1000 ≤ off then
    let e := ownPart fn (off - 0x1000) 0x100
    if e.1 < 32 ∧ e.2 = 0 then s.fabPartStat e.1 else 0
  else if fn ≠ 0 then 0
  else if off = 0x0 then pack [(16, s.fab.udpPort), (8, s.fab.timeout), (0, s.fab.rnr)]
  else if off = 0x4 then pack [(24, s.fab.beta), (16, s.fab.aiKib), (0, s.fab.target)]
  else if 0x10 ≤ off ∧ off < 0x20 then (tget 0 s.fab.addr ((off - 0x10) / 4)).toNat
  else if 0x100 ≤ off ∧ off < 0x120 then
    let k := tget portInit s.fab.ports ((off - 0x100) / 4)
    pack [(31, b2n k.up), (0, min 0xFFFF k.downs)]
  else 0

/-! ## MRD (R304) -/

def State.mrdCfg (s : State) : Nat :=
  pack [(24, s.mrd.domain), (16, s.mrd.ports), (14, s.mrd.profile), (12, s.mrd.source)]

def State.readMrd (s : State) (fn off : Nat) : Nat :=
  if off = 0x0 then secsOf s.now % 2 ^ 32
  else if off = 0x10 then (if fn = 0 then s.mrdCfg else 0)
  else if off = 0x14 then pack [(29, s.mrd.st), (26, s.mrd.port), (25, b2n s.mrd.stepped)]
  else if off = 0x18 then wrap 32 s.mrd.offset
  else if off = 0x1C then 4096 - s.mrd.marks.length
  else 0

/-! ## SEC, RNG (R352) -/

def State.secStat (s : State) : Nat :=
  pack [(28, s.sec.sessions.length), (27, b2n s.sec.tenantId.isSome), (26, b2n s.sec.switchRun), (16, s.sec.cause)]

/-- A slot's attributes as a function sees them. -/
def State.slotAttr (s : State) (fn n : Nat) : Nat :=
  let k := s.slot n
  if !k.valid ∨ (fn ≠ 0 ∧ (n < 8 ∨ !(k.anyPart || k.part == fn - 1))) then 0
  else
    pack [(31, 1), (29, k.origin), (27, k.life), (26, b2n k.meas), (25, b2n k.noExp), (24, b2n k.anyPart),
      (19, if k.anyPart ∨ n < 8 then 0 else k.part), (0, k.engine)]

def State.readSec (s : State) (fn off : Nat) : Nat :=
  if off = 0x0 then s.secStat
  else if off = 0x4 then s.sec.epoch
  else if off = 0x8 then s.sec.setId
  else if off = 0x10 then (if fn = 0 then s.sec.dbgWin % 2 ^ 32 else 0)
  else if 0x1000 ≤ off ∧ off < 0x1400 then s.slotAttr fn ((off - 0x1000) / 4)
  else 0

def State.readRng (s : State) (fn off : Nat) : Nat :=
  let r := s.rng
  if fn ≠ 0 then 0
  else if off = 0x0 then
    pack [(31, b2n r.empty), (30, b2n r.alarm), (29, b2n r.inject), (16, r.running.length),
      (0, min 2 (r.fails.filter (fun n => decide (r.blocks < n + 1024))).length)]
  else if off = 0x4 then pack [(7, b2n r.tap), (6, b2n r.inject), (0, r.tapSrc)]
  else 0

/-! ## PWR, FW (R371, R393) -/

def Phase.code : Phase → Nat
  | .auxOnly => 0 | .sequence => 1 | .run => 2 | .holdup => 3 | .offHeld => 4

def State.pwrStat (s : State) : Nat :=
  let p := s.pwr
  pack [(29, p.phase.code), (27, p.reset), (25, p.bank), (24, b2n (decide (p.ceiling < p.clock))), (23, b2n p.tripped),
    (20, p.lastStart), (0, min p.clock p.ceiling)]

def State.pwrTemp (s : State) : Nat := pack [(24, s.pwr.inlet), (16, s.pwr.junction)]

/-- WATTS: in steps of 25 W for the operator (R342). -/
def State.pwrPower (s : State) (fn : Nat) : Nat :=
  let ms := s.now / 1000000
  if fn = 0 then ((List.range 100).map (fun i => Config.watts (ms - i))).sum / 100 / 25 * 25 % 65536
  else Config.watts ms % 65536

def State.pwrStrap (s : State) : Nat := pack [(8, s.pwr.boot), (2, s.pwr.slotId), (0, s.pwr.lc)]

def State.readPwr (s : State) (fn off : Nat) : Nat :=
  if off = 0xC then s.pwrPower fn
  else if fn ≠ 0 then 0
  else if off = 0x0 then s.pwrStat
  else if off = 0x4 then s.pwrStrap
  else if off = 0x8 then s.pwrTemp
  else 0

def State.fwStat (s : State) : Nat :=
  pack [(29, s.fw.load), (27, s.fw.image), (24, s.fw.slotB), (23, b2n s.fw.dump.isSome), (0, s.fw.pieces.length)]

def State.readFw (s : State) (fn off : Nat) : Nat :=
  if fn ≠ 0 then 0
  else if off = 0x0 then s.fwStat
  else if off = 0x10 then s.fw.mboxLo.toNat
  else 0

/-! ## CNT (R404, R406, R342) -/

/-- The page of counters at an offset of a function: page, offset in it. -/
def cntPage (fn off : Nat) : Option (Option Nat × Nat) :=
  if fn = 0 ∧ 0x700000 ≤ off ∧ off < 0x701000 then some (none, off - 0x700000)
  else if fn ≠ 0 ∧ 0x701000 ≤ off ∧ off < 0x702000 then some (some (fn - 1), off - 0x701000)
  else none

/-- What a whole ms is in the unit of a counter of time or cycles of a page (none: the module page); 1 for a count of
events. CNT_PNL_STALL_MEM counts array cycles, here of the nominal 1,850 MHz (R342, R406; notes/assumptions/83.md). -/
def msUnit (page : Option Nat) (idx : Nat) : Nat :=
  match page with
  | none => if idx = cntFlcGateWait ∨ idx = cntPwrThrottle then 1000000 else 1
  | some _ =>
    if idx = cntMemWaitA ∨ idx = cntMemWaitB ∨ idx = cntFabCcWait then 1000000
    else if idx = cntPnlStallMem then 1850000
    else 1

/-- A counter as the operator sees it: times and cycles in whole ms. -/
def coarse (page : Option Nat) (idx : Nat) (c : Counter) : Counter :=
  { c with count := c.count / msUnit page idx * msUnit page idx }

/-- The counter whose LO register is at an offset, as the function sees it. -/
def State.counterAt (s : State) (fn off : Nat) : Option Counter :=
  match cntPage fn off with
  | some (pg, o) =>
    let c := (repOf s).counter pg (o / 8)
    if o % 8 = 0 ∧ o / 8 < 51 then some (if pg.isNone then coarse pg (o / 8) c else c) else none
  | none =>
    if fn = 0 ∧ 0x2000000 ≤ off ∧ off < 0x2200000 then
      let o := off % 0x10000
      let pg := some ((off - 0x2000000) / 0x10000)
      if o % 8 = 0 ∧ o / 8 < 51 then some (coarse pg (o / 8) ((repOf s).counter pg (o / 8))) else none
    else none

/-- The upper halves that a read of the LO register at `off` latches: offset and value (R7, R304, R404). -/
def State.latches (s : State) (fn off : Nat) : List (Nat × Nat) :=
  if off = 0x580000 then [(0x580004, secsOf s.now / 2 ^ 32), (0x580008, nanosOf s.now)]
  else if fn = 0 ∧ off = 0x340008 then [(0x34000C, s.loom.words / 2 ^ 32)]
  else if off = 0x400010 then [(0x400014, (s.errLatch fn).addr / 2 ^ 32)]
  else if fn = 0 ∧ off = 0x5C0010 then [(0x5C0014, s.sec.dbgWin / 2 ^ 32)]
  else if fn = 0 ∧ off = 0x680010 then [(0x680014, s.fw.mboxHi.toNat)]
  else match s.counterAt fn off with
    | some c => [(off + 4, pack [(31, b2n c.ovf), (0, c.count / 2 ^ 32)])]
    | none => []

/-- What the register at `off` of function `fn` reads; an upper half reads what its lower half latched. DESIGN CHOICE: an upper
half that no read of its lower half has latched reads 0, for which R7 states no value (notes/assumptions/86.md). -/
def State.readReg (s : State) (fn off : Nat) : Nat :=
  match tfind (s.fn fn).hiLatch off with
  | some v => v.toNat
  | none =>
    if off < 0x100000 then s.readGlb fn off
    else if off < 0x200000 then s.readHif fn (off - 0x100000)
    else if off < 0x300000 then s.readPnl fn (off - 0x200000)
    else if off < 0x320000 then s.readAgg fn (off - 0x300000)
    else if off < 0x340000 then s.readIng fn (off - 0x320000)
    else if off < 0x380000 then (if fn = 0 then s.readLoom (off - 0x340000) else 0)
    else if off < 0x400000 then (if (off - 0x380000) / 0x100 < 16 ∧ off % 0x100 = 0 then s.gruStat fn ((off - 0x380000) / 0x100) else 0)
    else if off < 0x480000 then s.readMem fn (off - 0x400000)
    else if off < 0x500000 then s.readFlc fn (off - 0x480000)
    else if off < 0x580000 then s.readFab fn (off - 0x500000)
    else if off < 0x5C0000 then s.readMrd fn (off - 0x580000)
    else if off < 0x5E0000 then s.readSec fn (off - 0x5C0000)
    else if off < 0x600000 then s.readRng fn (off - 0x5E0000)
    else if off < 0x680000 then s.readPwr fn (off - 0x600000)
    else if off < 0x700000 then s.readFw fn (off - 0x680000)
    else match s.counterAt fn off with
      | some c => c.count % 2 ^ 32
      | none => 0

end Sys2Proof.Machine
end

