-- ==== Sys2Proof/Machine/Security.lean ====
section
/-! DEFINITION. The Thimble (spec/14_trust_keys_attestation.md): tenant switch and retirement, FAULT_SECURE, the random
number source, SPDM sessions, tenant keys, the Cartouche. -/

namespace Sys2Proof.Machine

def State.setSec (s : State) (x : Sec) : State := { s with sec := x }

def State.setRng (s : State) (x : Rng) : State := { s with rng := x }

/-- The Thimble runs its firmware. -/
def State.thimbleUp (s : State) : Bool :=
  s.pwr.latched && !s.pwr.rom && s.pwr.phase != .holdup && s.pwr.phase != .offHeld

/-! ## TENANT_SWITCH, LIFECYCLE_RETIRE (R344, R345) -/

/-- Steps 1 and 2, with tier C and memory erased as seen from outside: their registers show the work going on. -/
def State.switchStart (s : State) (retire : Bool) : State :=
  let s1 := s.setSec { s.sec with pending := true, switchRun := true, retiring := retire || s.sec.retiring }
  let s2 := (s1.endSessions (fun _ => true)).zeroiseAll
  let s3 := { s2 with
    parts := s2.parts.map (fun (e : Nat × Part) => (e.1, { e.2 with drbg := none }))
    sec := { s2.sec with maskDrbg := none } }
  let s4 := s3.eraseAll
  { s4 with mem := { s4.mem with busy := true, kind := 3 } }

def execTenantSwitch (op : Nat) (s : State) : Res :=
  .next (onReady 0x91 op s (fun o =>
    if !zeroAt o.bytes 8 56 then s.finish op stSecField else (s.running op o).switchStart false))

/-- LIFECYCLE_RETIRE with its CONFIRM. FACTORY is left by fusing alone: there it completes with ST_SEC_FIELD (R3;
notes/assumptions/82.md). -/
def execLifecycleRetire (op : Nat) (s : State) : Res :=
  .next (onReady 0x92 op s (fun o =>
    if !zeroAt o.bytes 8 8 ∨ !zeroAt o.bytes 20 44 ∨ le o.bytes 16 4 ≠ 2 ^ 32 - 1 - s.sec.epoch % 2 ^ 32
        ∨ s.sec.lifecycle = 0 then
      s.finish op stSecField
    else (s.running op o).switchStart true))

/-- The descriptors that wait for the switch complete. -/
def State.finishSwitch (s : State) : State :=
  (s.ops.filter (fun (e : Nat × Op) => e.2.phase == .running && e.2.origin != .control
    && (e.2.opcode == 0x91 || e.2.opcode == 0x92))).foldl (fun s (e : Nat × Op) => s.finish e.1 stOk) s

/-- A line that does not read blank when it is read again after a second blank: its row is retired onto a blank spare row,
or stays in place with the line poisoned for good (R204, R205, R210). -/
def State.scrubFails (s : State) (e : Nat × Nat) : State :=
  if 2 ≤ e.1 ∨ tierBytes e.1 ≤ e.2 ∨ s.poisoned e.1 e.2 then s
  else
    let left := decide (tget 0 s.mem.spares (e.1 * 256 + groupOf e.1 e.2) < spareRows e.1)
    let s1 := if left then s else { s with mem := { s.mem with poison := lineKey e.1 e.2 :: s.mem.poison } }
    s1.retireRow e.1 e.2

/-- Steps 5 and 6: the scrub has ended, `bad` its lines that failed verification twice (tier, physical address; R210); the
epoch rises, the tenant is gone; the module resets, or is RETIRED with its UDS unreadable. -/
def execTenantSwitchScrubDone (bad : List (Nat × Nat)) (s : State) : Res :=
  .next (if s.isRun ∧ s.sec.switchRun then
      let s1 := (bad.foldl State.scrubFails s.blankAll).switchCommit
      let s2 := { s1 with
        mem := { s1.mem with busy := false, kind := 0 }
        flc := { s1.flc with st := if s1.flc.wp then 3 else 2 } }
      if s.sec.retiring then
        let s3 := s2.setSec { s2.sec with retiring := false, fused := .retired, udsFused := true }
        (s3.zeroise (fun n _ => n == 0)).finishSwitch
      else s2.finishSwitch.selfReset
    else s)

/-! ## MGMT_CRED (R391) -/

/-- OPERATOR_KEY set where `key` is a point of the curve. -/
def State.setOperatorKey (s : State) (key : Bytes) : State × Nat :=
  match ecParse key with
  | some _ => (s.setSec { s.sec with opKey := some key, seqFloor := 0 }, stOk)
  | none => (s, stSecField)

def execMgmtCred (op : Nat) (key : Bytes) (s : State) : Res :=
  .next (onReady 0x96 op s (fun o =>
    if !zeroAt o.bytes 8 8 ∨ !zeroAt o.bytes 24 40 then s.finish op stSecField
    else if !s.reachable 0 then s.finish op stHifHostUnreachable
    else
      let r := s.setOperatorKey (slice key 0 97)
      r.1.finish op r.2))

/-! ## FAULT_SECURE (R343) -/

def execMeshBreach (s : State) : Res := .next (s.enterFaultSecure 2)

def execGlitchDetect (s : State) : Res :=
  .next (if s.sec.slots.any (fun (e : Nat × KeySlot) => e.2.valid) then s.enterFaultSecure 3 else s)

/-- The partition to which a slot belongs. -/
def State.slotPart (s : State) (n : Nat) : Option Nat :=
  let k := s.slot n
  if k.valid ∧ 8 ≤ n ∧ !k.anyPart then some k.part else none

def execKeySlotIntegrityFault (slot : Nat) (s : State) : Res :=
  .next ((s.countError (s.slotPart slot) cntLasting).enterFaultSecure 4)

/-- The masks under which the 256 slots are stored are replaced by a request of the Thimble's DRBG; no key changes. -/
def execKeyMaskRefresh (s : State) : Res :=
  .next (match s.thimbleUp, s.sec.maskDrbg with
    | true, some d =>
      let g := s.drbgDraw d 8192
      g.2.2.setSec { g.2.2.sec with masks := g.1, maskDrbg := some g.2.1 }
    | _, _ => s)

/-! ## The random number source (R346 to R351) -/

/-- The bits of a block in order: bit 0 of each byte first. -/
def blockBits (bs : Bytes) : List Bool := bs.flatMap (fun b => (List.range 8).map (fun k => bit b.toNat k))

/-- The longest run of equal bits: current bit, its run, the longest so far. -/
def longestRun : List Bool → Bool → Nat → Nat → Nat
  | [], _, _, best => best
  | b :: bs, prev, run, best =>
    let r := if b = prev then run + 1 else 1
    longestRun bs b r (max best r)

/-- The test that a block fails: 1 repetition count, 2 adaptive proportion, 0 none. -/
def blockTest (bits : List Bool) : Nat :=
  match bits with
  | [] => 0
  | b :: _ =>
    if 81 ≤ longestRun bits b 0 0 then 1
    else if 840 ≤ (bits.filter (· == b)).length then 2
    else 0

/-- Failing blocks among the last 1,024. -/
def Rng.recent (r : Rng) : List Nat := r.fails.filter (fun n => decide (r.blocks < n + 1024))

/-- The fatal alarm at run time (R346). -/
def State.rngAlarm (s : State) (cause : Nat) : State :=
  let s1 := (s.setRng { s.rng with alarm := true, stopped := true }).raise srcRng evRngFatal 0xFF (leBytes 1 cause)
  s1.enterFaultSecure 1

/-- A block that fails: discarded, counted, its source restarts. A third failure in the window is fatal once the start-up
test has passed. -/
def State.blockFails (s : State) (source test : Nat) : State :=
  let r := s.rng
  let r1 := { r with
    blocks := r.blocks + 1, fails := r.fails ++ [r.blocks + 1], running := r.running.filter (· != source)
    startFails := if r.ended then r.startFails else r.startFails + 1 }
  let s1 := ((s.setRng { r1 with fails := r1.recent }).countMod cntRngHealthFail).raise srcRng evRngHealthFail 0xFF
    (leBytes 1 source ++ leBytes 1 test)
  if r1.passed ∧ !r1.alarm ∧ 3 ≤ r1.recent.length then s1.rngAlarm 1 else s1

/-- A block that passes: into the raw FIFO while it is tapped. -/
def State.blockPasses (s : State) (source : Nat) (bits : Bytes) : State :=
  let r := s.rng
  let words := (piecesOf 2 bits).map leNat
  s.setRng { r with
    blocks := r.blocks + 1
    fifo := if r.tap ∧ r.tapSrc = source then (r.fifo ++ words).take 64 else r.fifo }

/-- A block of a source reaches the health tests. While a test pattern is injected into the source, its block is made of
the words written. -/
def execRngBlockTest (source : Nat) (bits : Bytes) (s : State) : Res :=
  .next (if !s.isRun ∨ !s.rng.running.contains source then s
    else
      let inj := s.rng.inject ∧ s.rng.tapSrc = source
      if inj ∧ s.rng.injected.length < 128 then s
      else
        let b := slice (if inj then s.rng.injected else bits) 0 128
        let s1 := if inj then s.setRng { s.rng with injected := s.rng.injected.drop 128 } else s
        let t := blockTest (blockBits b)
        if t = 0 then s1.blockPasses source b else s1.blockFails source t)

def execRngSourceRestartDone (source : Nat) (s : State) : Res :=
  .next (if s.isRun ∧ source < 64 ∧ !s.rng.running.contains source then
      s.setRng { s.rng with running := source :: s.rng.running }
    else s)

/-- Blocks of the start-up test: 1,024 of each of 64 sources (R347). -/
def startBlocks : Nat := 65536

/-- A failing block of the start-up test that no RNG_BLOCK_TEST has brought: its number in the order in which the tests
complete, its source, the test that it failed. Any other triple names no such block. -/
def State.startFail (s : State) (f : Nat × Nat × Nat) : State :=
  if s.rng.blocks < f.1 ∧ f.1 ≤ startBlocks ∧ f.2.1 < 64 ∧ (f.2.2 = 1 ∨ f.2.2 = 2) then
    (s.setRng { s.rng with blocks := f.1 - 1 }).blockFails f.2.1 f.2.2
  else s

/-- The start-up test ends: every source has delivered its 1,024 blocks, `fails` the failing ones among those that no
RNG_BLOCK_TEST has brought. It passes when at most two blocks failed in total (R347). -/
def execRngStartupTestDone (fails : List (Nat × Nat × Nat)) (s : State) : Res :=
  .next (if !s.isRun ∨ s.rng.ended then s
    else
      let f := fails.foldl State.startFail s
      let t := f.setRng { f.rng with blocks := max f.rng.blocks startBlocks }
      if t.rng.startFails ≤ 2 then ((t.setRng { t.rng with passed := true }).bootSecure).startCores
      else
        let a := t.rngAlarm 2
        (if a.sec.lifecycle = 2 ∧ a.sec.held then a.setSec { a.sec with cause := 1 } else a).startCores)

def offRngRaw : Nat := 0x005E0008

/-- A read of RNG_RAW pops 16 raw bits. -/
def execRngRawRead (s : State) : Res :=
  .next (if !s.isRun then s
    else match s.rng.fifo with
      | [] => (s.setRng { s.rng with empty := true }).put (.readData 0 offRngRaw 32 0)
      | w :: ws => (s.setRng { s.rng with fifo := ws }).put (.readData 0 offRngRaw 32 (2 ^ 31 + w)))

/-- A write of RNG_RAW injects 16 bits. -/
def execRngRawWrite (v : Word) (s : State) : Res :=
  .next (if s.isRun ∧ s.rng.inject then
      s.setRng { s.rng with injected := s.rng.injected ++ leBytes 2 v.toNat }
    else s)

/-- RNG_CTL: INJECT only in FACTORY. -/
def execRngCtlWrite (v : Word) (s : State) : Res :=
  .next (if !s.isRun then s
    else
      let n := v.toNat
      let want := bit n 6
      let ok := s.sec.lifecycle = 0
      let s1 := s.setRng { s.rng with
        tap := bit n 7, tapSrc := n % 64, inject := want && decide ok
        injected := if want ∧ ok then s.rng.injected else [] }
      if want ∧ ¬ ok then s1.raise srcThimble evSecInjectDenied 0xFF [] else s1)

/-! ## SPDM (R335 to R337) -/

abbrev spdmCertificate : Nat := 0x02
abbrev spdmChallengeAuth : Nat := 0x03
abbrev spdmMeasurements : Nat := 0x60
abbrev spdmKeyExchangeRsp : Nat := 0x64
abbrev spdmFinishRsp : Nat := 0x65
abbrev spdmHeartbeatAck : Nat := 0x68
abbrev spdmKeyUpdateAck : Nat := 0x69
abbrev spdmEndSessionAck : Nat := 0x6C
abbrev spdmVendorRsp : Nat := 0x7E
abbrev spdmError : Nat := 0x7F

/-- ErrorCode values of DSP0274. -/
abbrev spdmInvalidRequest : Nat := 0x01
abbrev spdmUnspecified : Nat := 0x05
abbrev spdmSessionLimit : Nat := 0x0A

/-- The carrier reaches the Thimble: the management link while the Thimble runs, a DOE mailbox in RUN. -/
def State.carries (s : State) (c : Carrier) : Bool :=
  s.thimbleUp && (match c with | .doe _ => s.isRun | .mctp => true)

def State.session (s : State) (sid : Nat) : Option Session := s.sec.sessions.find? (fun (x : Session) => x.sid == sid)

def State.setSession (s : State) (x : Session) : State :=
  s.setSec { s.sec with sessions := s.sec.sessions.map (fun (y : Session) => if y.sid = x.sid then x else y) }

/-- The signature of a digest by the device identity key in slot 0, with a fresh nonce. -/
def State.sign (s : State) (digest : Bytes) : Bytes × State :=
  let f := s.freeBytes 56
  (ecdsaSign (beNat (s.slot 0).key) (ecScalar f.1) digest, f.2)

/-- A response with a signature by the device identity key over the hash of its transcript, which is open: the model
holds no transcript (notes/assumptions/85.md). An ERROR where slot 0 holds no key. -/
def State.signed (s : State) (c : Carrier) (code : Nat) (body : Bytes) : State :=
  if (s.slot 0).usable engCart 0 then
    let t := s.freeBytes 48
    let f := t.2.sign t.1
    f.2.put (.spdm c code (body ++ f.1))
  else s.put (.spdm c spdmError (leBytes 1 spdmUnspecified))

/-- KEY_EXCHANGE: a session, unless eight are open or a tenant switch refuses new ones. `exch` is the requester's ECDHE
secp384r1 public key, x then y; the response brings the module's, and both make the session's secret (R335). -/
def execSpdmKeyExchange (carrier : Carrier) (sid : BitVec 32) (exch : Bytes) (s : State) : Res :=
  .next (if !s.carries carrier ∨ (s.session sid.toNat).isSome then s
    else if 8 ≤ s.sec.sessions.length then s.put (.spdm carrier spdmError (leBytes 1 spdmSessionLimit))
    else if s.sec.switchRun ∨ !(s.slot 0).usable engCart 0 then s.put (.spdm carrier spdmError (leBytes 1 spdmUnspecified))
    else
      let f := s.freeBytes 56
      let d := ecScalar f.1
      match ecdh d ([4] ++ exch) with
      | none => s.put (.spdm carrier spdmError (leBytes 1 spdmInvalidRequest))
      | some secret =>
        let x : Session := ⟨sid.toNat, carrier, false, false, 0, s.now, secret⟩
        ((f.2.setSec { f.2.sec with sessions := f.2.sec.sessions ++ [x] }).signed carrier spdmKeyExchangeRsp
          (leBytes 4 sid.toNat ++ (ecPublic d).drop 1)).sessionEvent x 1)

/-- FINISH. The first mutual authentication of a DEPLOYED module without a tenant claims it. -/
def execSpdmFinish (sid : BitVec 32) (root : PeerRoot) (s : State) : Res :=
  .next (match s.session sid.toNat with
    | none => s
    | some x =>
      if x.secured then s
      else
        let held := s.sec.lifecycle = 1
        let claim := match root with
          | some _ => decide held && s.sec.tenantId.isNone
          | none => false
        let s1 := if claim then
            (s.setSec { s.sec with tenantId := root }).raise srcThimble evSecTenantClaimed 0xFF
              (leBytes 1 (carrierCode x.carrier))
          else s
        let tenant := decide held && root.isSome && s1.sec.tenantId == root
        (s1.setSession { x with secured := true, tenant := tenant, hbAt := s.now }).put
          (.spdm x.carrier spdmFinishRsp []))

/-- The chain of slot 0: from the Llynsis root to the DeviceID certificate, then those of this boot (R325). -/
def State.chain (s : State) : Bytes := (List.range Config.rootChainLength).map Config.rootChain ++ s.sec.certs

def execSpdmGetCertificate (carrier : Carrier) (s : State) : Res :=
  .next (if s.carries carrier then s.put (.spdm carrier spdmCertificate s.chain) else s)

/-- A DMTF measurement block with a SHA-384 digest. -/
def measBlock (index : Nat) (digest : Bytes) : Bytes :=
  leBytes 1 index ++ leBytes 1 1 ++ leBytes 2 51 ++ leBytes 1 (index - 1) ++ leBytes 2 48 ++ digest

def State.measurements (s : State) : Bytes :=
  measBlock 1 (beBytes 48 Config.romDigest.toNat) ++ measBlock 2 s.sec.m1 ++ measBlock 3 s.sec.m2

def execSpdmGetMeasurements (carrier : Carrier) (s : State) : Res :=
  .next (if s.carries carrier then s.signed carrier spdmMeasurements s.measurements else s)

def execSpdmChallenge (carrier : Carrier) (nonce : Bytes) (s : State) : Res :=
  .next (if s.carries carrier then s.signed carrier spdmChallengeAuth (nonce ++ sha384 s.chain) else s)

/-- A request in a secured session refreshes its heartbeat and is answered. -/
def State.inSession (s : State) (sid : Nat) (f : Session → State → State) : State :=
  match s.session sid with
  | some x => if x.secured ∧ s.carries x.carrier then f x (s.setSession { x with hbAt := s.now }) else s
  | none => s

def execSpdmKeyUpdate (sid : BitVec 32) (s : State) : Res :=
  .next (s.inSession sid.toNat (fun x s =>
    (s.setSession { x with keyNo := x.keyNo + 1, hbAt := s.now }).put (.spdm x.carrier spdmKeyUpdateAck [])))

def execSpdmHeartbeat (sid : BitVec 32) (s : State) : Res :=
  .next (s.inSession sid.toNat (fun x s => s.put (.spdm x.carrier spdmHeartbeatAck [])))

def execSpdmEndSession (sid : BitVec 32) (s : State) : Res :=
  .next (s.inSession sid.toNat (fun x s =>
    (s.put (.spdm x.carrier spdmEndSessionAck [])).endSessions (fun (y : Session) => y.sid == x.sid)))

/-- Twice the heartbeat period without a request. -/
def heartbeatNs : Nat := 20 * nsPerSec

def execSpdmHeartbeatExpiry (sid : BitVec 32) (s : State) : Res :=
  .next (match s.session sid.toNat with
    | some x => (s.atLeast (x.hbAt + heartbeatNs)).endSessions (fun (y : Session) => y.sid == x.sid)
    | none => s)

def execDoeAbort (fn : Nat) (s : State) : Res :=
  .next (s.endSessions (fun (x : Session) => x.carrier == .doe fn))

def execMgmtLinkReset (s : State) : Res :=
  .next (s.endSessions (fun (x : Session) => x.carrier == .mctp))

/-- IDE_KM over a tenant session: one of the six keys of a stream (R247, R326). -/
def execIdeKmKeyProg (sid : BitVec 32) (stream substream : Nat) (rx : Bool) (key : Bytes) (s : State) : Res :=
  .next (s.inSession sid.toNat (fun x s =>
    if x.tenant ∧ stream < 33 ∧ substream < 3 then
      s.setSec { s.sec with ide := tset (6 * stream + 2 * substream + b2n rx) (x.sid, slice key 0 32) s.sec.ide }
    else s))

/-! ## Tenant keys (R330 to R332, R338) -/

/-- What a VENDOR_DEFINED message begins with: StandardID 0x0003 (PCI-SIG), the length of the vendor ID and the module's
PCI vendor ID, then the length of what follows (R338; the places are DSP0274's, notes/assumptions/85.md). -/
def vendorHead (n : Nat) : Bytes := leBytes 2 3 ++ leBytes 1 2 ++ leBytes 2 Config.vendorId.toNat ++ leBytes 2 n

/-- The VENDOR_DEFINED response of R338. -/
def State.reply (s : State) (c : Carrier) (cmd status : Nat) (body : Bytes) : State :=
  s.put (.spdm c spdmVendorRsp (vendorHead (8 + body.length)
    ++ (leBytes 1 (cmd + 0x80) ++ zeros 1 ++ leBytes 2 body.length ++ leBytes 2 status ++ zeros 2 ++ body)))

/-- A request of R338: byte 0 CMD, byte 1 reserved, bytes 2 and 3 the body length, the body. -/
def vendorReq (cmd : Nat) (body : Bytes) : Bytes := leBytes 1 cmd ++ zeros 1 ++ leBytes 2 body.length ++ body

/-- The body of a request whose header is as R338 lays it out for the command. -/
def vendorBody (cmd : Nat) (req : Bytes) : Option Bytes :=
  if byteAt req 0 = cmd ∧ byteAt req 1 = 0 ∧ 4 ≤ req.length ∧ le req 2 2 = req.length - 4 then some (req.drop 4) else none

/-- A command of R338: `f` gives, for its body, the state, the status and the response body. -/
def State.vendor (s : State) (sid : BitVec 32) (cmd : Nat) (tenant : Bool) (req : Bytes)
    (f : Session → Bytes → State → State × Nat × Bytes) : State :=
  s.inSession sid.toNat (fun x s =>
    if tenant ∧ !x.tenant then s.reply x.carrier cmd stSecNotTenant []
    else match vendorBody cmd req with
      | none => s.reply x.carrier cmd stSecField []
      | some body =>
        let r := f x body s
        r.1.reply x.carrier cmd r.2.1 r.2.2)

/-- A slot that a tenant may name. -/
def tenantSlot (n : Nat) : Bool := decide (168 ≤ n) && decide (n ≤ 255)

/-- The fields that KEY_DELIVER and KEY_UNWRAP share; bodies of `len` bytes. -/
def deliverFieldOk (b : Bytes) (len : Nat) : Bool :=
  b.length == len && tenantSlot (byteAt b 0) && (decide (byteAt b 1 < 32) || byteAt b 1 == 0xFF)
    && decide (byteAt b 5 < 4) && zeroAt b 6 2

/-- The slot that a delivery fills. -/
def deliverSlot (b key : Bytes) (origin engine sid : Nat) : KeySlot :=
  ⟨true, key, origin, byteAt b 4, bit (byteAt b 5) 0, bit (byteAt b 5) 1, byteAt b 1 == 0xFF,
    if byteAt b 1 = 0xFF then 0 else byteAt b 1, engine, sid⟩

/-- A tenant tier C key of the partition is held. -/
def State.tierCHeld (s : State) (k : KeySlot) : Bool :=
  s.sec.slots.any (fun (e : Nat × KeySlot) => decide (168 ≤ e.1) && e.2.valid && bit e.2.engine engTierC
    && (e.2.anyPart || k.anyPart || e.2.part == k.part))

/-- The engines that a delivered key may name, one each (R331). -/
def deliverEngines : List Nat := [2 ^ engPxt, 2 ^ engTierC, 2 ^ engWeight, 2 ^ engGru]

/-- KEY_DELIVER. -/
def execKeyDeliver (sid : BitVec 32) (req : Bytes) (s : State) : Res :=
  .next (s.vendor sid 0x01 true req (fun x body s =>
    let n := byteAt body 0
    let k := deliverSlot body (slice body 8 32) 0 (le body 2 2) x.sid
    if !deliverFieldOk body 40 then (s, stSecField, [])
    else if !deliverEngines.contains k.engine ∨ (k.life ≠ 0 ∧ k.life ≠ 2) then (s, stSecSlotAttr, [])
    else if (s.slot n).valid ∨ (bit k.engine engTierC ∧ s.tierCHeld k) then (s, stSecSlotBusy, [])
    else
      let s1 := s.setSlot n k
      (if bit k.engine engTierC then s1.deriveTierC k else s1, stOk, [])))

/-- The wrap key of the device set (R332). -/
def State.wrapKey (s : State) : Bytes := hkdf384 (s.slot 1).key (ascii "LLY-WKEK") (leBytes 4 s.sec.setId) 32

/-- KEY_UNWRAP. -/
def execKeyUnwrap (sid : BitVec 32) (req : Bytes) (s : State) : Res :=
  .next (s.vendor sid 0x02 true req (fun x body s =>
    let n := byteAt body 0
    if !deliverFieldOk body 48 then (s, stSecField, [])
    else if !(s.slot 1).valid ∨ (byteAt body 4 ≠ 0 ∧ byteAt body 4 ≠ 2) then (s, stSecSlotAttr, [])
    else if (s.slot n).valid then (s, stSecSlotBusy, [])
    else match keyUnwrap3394 s.wrapKey (slice body 8 40) with
      | none => (s, stSecUnwrap, [])
      | some key => (s.setSlot n (deliverSlot body key 2 (2 ^ engWeight) x.sid), stOk, [])))

/-- KEY_WRAP. -/
def execKeyWrap (sid : BitVec 32) (req : Bytes) (s : State) : Res :=
  .next (s.vendor sid 0x03 true req (fun _ body s =>
    let k := s.slot (byteAt body 0)
    if body.length ≠ 1 ∨ !tenantSlot (byteAt body 0) then (s, stSecField, [])
    else if !k.valid ∨ k.engine ≠ 2 ^ engWeight ∨ k.origin ≠ 0 ∨ k.noExp then (s, stSecNoExport, [])
    else if !(s.slot 1).valid then (s, stSecSlotAttr, [])
    else (s, stOk, keyWrap3394 s.wrapKey k.key)))

/-- KEY_ZEROISE: one tenant slot, or every one. -/
def execKeyZeroise (sid : BitVec 32) (req : Bytes) (s : State) : Res :=
  .next (s.vendor sid 0x04 true req (fun _ body s =>
    let n := byteAt body 0
    if body.length ≠ 1 ∨ !tenantSlot n then (s, stSecField, [])
    else (s.zeroise (fun i _ => decide (168 ≤ i) && (n == 0xFF || i == n)), stOk, [])))

/-! ## The Cartouche (R339, R340) -/

/-- One firmware entry. -/
def State.fwEntry (s : State) (i : Nat) : Bytes :=
  let m := s.fw.manifest
  let e := manEntry m i
  slice e 0 2 ++ leBytes 1 s.fw.running ++ leBytes 1 (if s.fw.image = 1 then 1 else 0) ++ slice e 4 4 ++ zeros 8
    ++ slice e 48 48

/-- One round entry. -/
def Round.entry (x : Round) (r : Nat) : Bytes :=
  leBytes 1 r ++ leBytes 1 x.st.code ++ zeros 14 ++ slice x.policy 0 128 ++ slice x.pub 0 97 ++ zeros 7 ++ slice x.mseed 0 32

/-- The open rounds, ascending. -/
def State.openRounds (s : State) : List Nat := (List.range 64).filter (fun r => (s.round r).st.running)

/-- An entry of a partition's section: an ID and a digest. -/
def idEntry (id : Nat) (digest : Bytes) : Bytes := leBytes 1 id ++ zeros 15 ++ slice digest 0 48

/-- The section of partition `p`. -/
def State.partSection (s : State) (p : Nat) : Bytes :=
  let gs := s.progs.filter (fun (e : Nat × GateProg) => e.1 / 256 == p)
  let ws := s.sec.weights.filter (fun (e : Nat × Weight) => e.1 / 64 == p)
  let x := s.part p
  leBytes 1 p ++ zeros 1 ++ leBytes 2 gs.length ++ leBytes 2 ws.length ++ zeros 2 ++ leBytes 4 x.log.length ++ zeros 4
    ++ slice x.chain 0 48 ++ gs.flatMap (fun (e : Nat × GateProg) => idEntry (e.1 % 256) e.2.digest)
    ++ ws.flatMap (fun (e : Nat × Weight) => idEntry (e.1 % 64) e.2.digest)

/-- Every section after the header. -/
def State.cartBody (s : State) (mask : Nat) : Bytes :=
  (List.range 7).flatMap s.fwEntry ++ leBytes 4 s.layout.length ++ zeros 12 ++ padTo 16 s.layout
    ++ s.openRounds.flatMap (fun r => (s.round r).entry r) ++ (bitsOf 32 mask).flatMap s.partSection

/-- The Cartouche without its signature. -/
def State.cartouche (s : State) (mask : Nat) (nonce : Bytes) : Bytes :=
  let body := s.cartBody mask
  leBytes 1 1 ++ leBytes 1 s.sec.lifecycle ++ leBytes 1 7 ++ leBytes 1 s.openRounds.length ++ leBytes 4 s.sec.setId
    ++ leBytes 4 s.sec.epoch ++ leBytes 4 (128 + body.length + 96) ++ leBytes 4 mask ++ time10 s.now ++ zeros 2
    ++ slice nonce 0 32 ++ (match s.sec.tenantId with | some d => slice d 0 48 | none => zeros 48) ++ zeros 16 ++ body

/-- CARTOUCHE_GET: the snapshot, signed by the device identity key. -/
def execCartoucheGet (sid : BitVec 32) (req : Bytes) (s : State) : Res :=
  .next (s.vendor sid 0x05 false req (fun _ body s =>
    if body.length ≠ 36 then (s, stSecField, [])
    else if !(s.slot 0).usable engCart 0 then (s, stSecSlotAttr, [])
    else
      let c := s.cartouche (le body 0 4) (slice body 4 32)
      let f := s.sign (sha384 c)
      (f.2, stOk, c ++ f.1)))

/-- CARTOUCHE_LOG: at most 128 digests from entry FIRST. -/
def execCartoucheLog (sid : BitVec 32) (req : Bytes) (s : State) : Res :=
  .next (s.vendor sid 0x06 false req (fun _ body s =>
    let l := ((s.part (byteAt body 0)).log.drop (le body 2 2)).take 128
    if body.length ≠ 4 ∨ 32 ≤ byteAt body 0 ∨ byteAt body 1 ≠ 0 then (s, stSecField, [])
    else (s, stOk, leBytes 2 l.length ++ l.flatten)))

end Sys2Proof.Machine
end

