-- ==== Sys2Proof/Machine/Regs.lean ====
section
/-! DEFINITION. Register accesses (R6 to R10): reads with their latches, writes by the access code of each field, accesses
of another width, the operator's debug views (R341), counters (R404, R405). -/

namespace Sys2Proof.Machine

/-! ## Widths, counters, debug views -/

/-- The bytes that BAR0 of a function decodes (R249). -/
def barBytes (fn : Nat) : Nat := if fn = 0 then 64 * 2 ^ 20 else 8 * 2 ^ 20

/-- An access of a width other than 32 bits: all ones on read, no effect on write, counted (R6). -/
def execBadAccessWidth (fn off width : Nat) (write : Bool) (s : State) : Res :=
  .next (if !s.isRun ∨ width = 32 ∨ barBytes fn ≤ off then s
    else
      let s1 := s.count (pageOf fn) cntBadAccess 1
      if write then s1 else s1.put (.readData fn off width (2 ^ width - 1)))

/-- A write to a debug view changes nothing and is counted (R341). -/
def execDebugViewWrite (off : Nat) (_v : Word) (s : State) : Res :=
  .next (if s.isRun ∧ 0x800000 ≤ off ∧ off < barBytes 0 then s.countMod cntSecDbgWrite else s)

/-- Counters on the page of a function (R407). -/
def pageCounters (fn : Nat) : Nat := if fn = 0 then 25 else 51

/-- A 1 written to OVF: OVF and the count return to 0 (R404). -/
def execCounterOvfClear (fn idx : Nat) (s : State) : Res :=
  .next (if s.isRun ∧ idx < pageCounters fn then onRep (fun r => r.setCounter (pageOf fn) idx cntInit) s else s)

/-- A 1 written to CNT_CTL.CLEAR_ALL (R405). -/
def execCntCtlClearAll (fn : Nat) (s : State) : Res :=
  .next (if !s.isRun then s
    else if fn = 0 then { s with cntMod := [] }
    else { s with cntPart := tdelRange ((fn - 1) * 64) ((fn - 1) * 64 + 64) s.cntPart })

/-! ## Debug views (R196, R341) -/

/-- The key slot of the memory crypto of a physical address: its partition's, or the system area's (R195, R326). -/
def State.memSlot (s : State) (tier pa : Nat) : Option Nat :=
  match s.partAddr tier pa with
  | some (p, _) => some (8 + 2 * p + tier)
  | none => if tier = 1 ∧ 1536 * 2 ^ 30 ≤ pa then some 2 else none

/-- The tweak of a line (R194). -/
def lineTweak (tier pa : Nat) : Nat := tier * 2 ^ 127 + pa / 64 % 2 ^ 58

/-- The system area holds something: the handoff area of a FIRMWARE mark, staged lower pages of tier C, spare rows in use
(R191). -/
def State.systemHeld (s : State) : Bool :=
  s.fw.running == 1 || !s.flc.pages.isEmpty || !s.mem.retired.isEmpty
    || s.mrd.marks.any (fun (e : Nat × Mark) => e.2.action == 9 && e.2.st != .set && e.2.st != .reserved)

/-- The stored bytes of the line that holds a physical address: ciphertext, zero where it is blank; open without a key, and in
a system area that holds something, whose places the spec does not give (R191, R194, R196, R197). -/
def State.storedLine (s : State) (tier pa : Nat) : Bytes × State :=
  let base := pa / 64 * 64
  let plain := rdBytes (s.memOf tier) base 64
  if inSystemArea tier pa then (if s.systemHeld then s.freeBytes 64 else (zeros 64, s))
  else if !spanHas s.mem.written (lineKey tier pa) then (zeros 64, s)
  else match s.memSlot tier pa with
    | some n => if (s.slot n).valid then (xtsEncrypt (s.slot n).key (lineTweak tier pa) plain, s) else s.freeBytes 64
    | none => s.freeBytes 64

/-- The offsets of the operator's views (R341). -/
def viewOffset (fn off : Nat) : Bool := fn == 0 && decide (0x800000 ≤ off) && decide (off < barBytes 0)

/-- FAULT_SECURE and RETIRED permit no operator views (R3, R341). -/
def State.viewsShut (s : State) : Bool := decide (2 ≤ s.sec.lifecycle)

/-- A word of the PF above the block map: the memory window at SEC_DBG_WIN, the registers and retired addresses of a core,
which nothing here constrains; a partition's counters are registers of R404 (R341). -/
def State.readView (s : State) (off : Nat) : Nat × State :=
  if off < 0x1000000 then
    let pa := s.sec.dbgWin % 2 ^ 63 + (off - 0x800000)
    let l := s.storedLine (s.sec.dbgWin / 2 ^ 63) pa
    (le l.1 (pa % 64) 4, l.2)
  else if off < 0x1000000 + 66 * 0x10000 ∧ (off % 0x10000 < 0x84 ∨ 0x8000 ≤ off % 0x10000) then
    let f := s.freeBytes 4
    (leNat f.1, f.2)
  else (s.readReg 0 off, s)

/-! ## Reads (R7) -/

/-- A read of 32 bits. At the LO half of a pair it latches HI for the function (R7); RNG_RAW is a FIFO (R351). The table
has no row for the read of another register: it returns the register and changes nothing (notes/assumptions/48.md). -/
def execLoReadLatch (fn off : Nat) (s : State) : Res :=
  if !s.isRun ∨ barBytes fn ≤ off then .next s
  else if fn = 0 ∧ off = offRngRaw then execRngRawRead s
  else if viewOffset fn off ∧ s.viewsShut then .next (s.put (.readData fn off 32 0))
  else if viewOffset fn off ∧ off < 0x2000000 then
    let v := s.readView off
    .next (v.2.put (.readData fn off 32 v.1))
  else
    let l := s.latches fn off
    let h := s.fn fn
    let s1 := s.setFn fn { h with
      hiLatch := l.foldl (fun t (e : Nat × Nat) => tset e.1 (BitVec.ofNat 32 e.2) t) h.hiLatch }
    .next (s1.put (.readData fn off 32 (s.readReg fn off)))

/-! ## Writes, block by block (R8, R9) -/

def State.setFab (s : State) (x : Fab) : State := { s with fab := x }

/-- A write of GLB (R20, R21). -/
def State.writeGlb (s : State) (fn off v : Nat) : State :=
  if off = 0x4 ∧ fn = 0 then { s with glb := { s.glb with det := bit v 0 } }
  else if off = 0x8 then
    let clear := fun x => field x 0 5 - (field x 0 5 &&& v)
    if fn = 0 then { s with glb := { s.glb with detPf := clear s.glb.detPf } }
    else { s with glb := { s.glb with detVf := tset (fn - 1) (clear (tget 0 s.glb.detVf (fn - 1))) s.glb.detVf } }
  else s

/-- A write of HIF (R252, R253, R272). -/
def writeHif (fn off : Nat) (v : Word) (s : State) : Res :=
  let h := s.fn fn
  let n := v.toNat
  if off < 0x40 then
    .next (if s.serving then s.setFn fn { h with win := { h.win with words := tset (off / 4) v h.win.words } } else s)
  else if off = 0x40 then .next (if bit n 0 then s.commit fn else s)
  else if off = 0x44 then .next (if bit n 30 then s.setFn fn { h with win := { h.win with lost := false } } else s)
  else if off = 0xA0 then (if bit n 0 then execHifHeldStatClear fn s else .next s)
  else if off = 0x104 then execHifHbCfgWrite fn v s
  else if off = 0x108 then execHifHeartbeat fn v s
  else if off = 0x110 then execHifSqTailWrite fn v s
  else if off = 0x114 then execHifCqHeadWrite fn v s
  else if off = 0x118 then execHifEqHeadWrite fn v s
  else .next s

/-- `f` on the next state that an answer holds. -/
def thenNext (r : Res) (f : State → Res) : Res :=
  match r with
  | .next t => f t
  | x => x

/-- A write of ING (R162, R163). -/
def writeIng (fn off : Nat) (v : Word) (s : State) : Res :=
  let e := ownPart fn off 0x400
  let g := s.ing e.1
  let n := v.toNat
  if 32 ≤ e.1 then .next s
  else if e.2 = 0x0 then .next (s.setIng e.1 { g with cut := n % 128 })
  else if e.2 = 0x4 then
    thenNext (if bit n 0 then execIngCtlFlush e.1 s else .next s)
      (fun t => if bit n 1 then execIngCtlUnlatch e.1 t else .next t)
  else if e.2 = 0xC then .next (s.setIng e.1 { g with istat := g.istat - (g.istat &&& (n % 2048)) })
  else if e.2 = 0x10 then .next (s.setIng e.1 { g with ien := BitVec.ofNat 32 (n % 2048) })
  else .next s

/-- A patrol period: `v` where it is 1 to 168 hours (R212). -/
def period (old v : Nat) : Nat := if v = 0 ∨ 168 < v then old else v

/-- A write of MEM (R212, R213). -/
def writeMem (fn off : Nat) (v : Word) (s : State) : Res :=
  let n := v.toNat
  if off = 0x18 then (if bit n 31 then execMemErrInfoClear fn s else .next s)
  else if fn = 0 ∧ off = 0x0 then
    .next { s with mem := { s.mem with patrolB := period s.mem.patrolB (field n 8 8), patrolA := period s.mem.patrolA (n % 256) } }
  else .next s

/-- A write of FLC (R246). -/
def State.writeFlc (s : State) (fn off v : Nat) : State :=
  if fn = 0 ∧ off = 0x8 ∧ 1 ≤ v % 32 ∧ v % 32 ≤ 30 then { s with flc := { s.flc with patrol := v % 32 } } else s

/-- A write of FAB (R303). -/
def State.writeFab (s : State) (fn off v : Nat) : State :=
  let x := s.fab
  if fn ≠ 0 then s
  else if off = 0x0 then
    s.setFab { x with
      udpPort := field v 16 16, timeout := if field v 8 8 = 0 then x.timeout else field v 8 8
      rnr := if field v 0 8 = 0 then x.rnr else field v 0 8 }
  else if off = 0x4 then s.setFab { x with beta := field v 24 8, aiKib := field v 16 8, target := field v 0 16 }
  else if 0x10 ≤ off ∧ off < 0x20 ∧ x.jobs.isEmpty then
    s.setFab { x with addr := tset ((off - 0x10) / 4) (BitVec.ofNat 32 v) x.addr }
  else s

/-- A write of MRD (R304). -/
def writeMrd (fn off : Nat) (v : Word) (s : State) : Res :=
  if fn = 0 ∧ off = 0x10 then execMrdCfgWrite v s
  else if off = 0x14 ∧ bit v.toNat 25 then .next { s with mrd := { s.mrd with stepped := false } }
  else .next s

/-- The LO half written before the HI half of the pair at `lo`; `cur` where none was (R7). -/
def State.staged (s : State) (lo cur : Nat) : Nat :=
  match tfind (s.fn 0).loStage lo with
  | some v => v.toNat
  | none => cur

/-- A LO half of a pair of the PF waits for its HI half (R7). -/
def State.stageLo (s : State) (lo : Nat) (v : Word) : State :=
  s.setFn 0 { s.fn 0 with loStage := tset lo v (s.fn 0).loStage }

/-- A write of SEC: SEC_DBG_WIN, bits [22:0] 0 (R352). -/
def State.writeSec (s : State) (fn off : Nat) (v : Word) : State :=
  if fn ≠ 0 then s
  else if off = 0x10 then s.stageLo 0x5C0010 v
  else if off = 0x14 then
    let lo := s.staged 0x5C0010 (s.sec.dbgWin % 2 ^ 32)
    s.setSec { s.sec with dbgWin := v.toNat * 2 ^ 32 + lo / 2 ^ 23 * 2 ^ 23 }
  else s

/-- A write of RNG (R351, R352). -/
def writeRng (fn off : Nat) (v : Word) (s : State) : Res :=
  if fn ≠ 0 then .next s
  else if off = 0x0 then .next (if bit v.toNat 31 then s.setRng { s.rng with empty := false } else s)
  else if off = 0x4 then execRngCtlWrite v s
  else if off = 0x8 then execRngRawWrite v s
  else .next s

/-- A write of FW (R371). -/
def writeFw (fn off : Nat) (v : Word) (s : State) : Res :=
  if fn ≠ 0 then .next s
  else if off = 0x10 then .next (s.stageLo 0x680010 v)
  else if off = 0x14 then
    let lo := s.staged 0x680010 s.fw.mboxLo.toNat
    .next { s with fw := { s.fw with mboxLo := BitVec.ofNat 32 (lo / 16 * 16), mboxHi := v } }
  else if off = 0x18 then (if bit v.toNat 0 then execFwMboxGo s else .next s)
  else if off = 0x20 then execFwConfirmWrite v s
  else .next s

/-- A write of CNT (R404, R405). -/
def writeCnt (fn off : Nat) (v : Word) (s : State) : Res :=
  match cntPage fn off with
  | none => .next s
  | some (_, o) =>
    if o = 0xFF0 then (if bit v.toNat 0 then execCntCtlClearAll fn s else .next s)
    else if o % 8 = 4 ∧ bit v.toNat 31 then execCounterOvfClear fn (o / 8) s
    else .next s

/-- REGISTER_WRITE: by the block map of R5. A register that has a row of its own has that row's effect. -/
def execRegisterWrite (fn off : Nat) (v : Word) (s : State) : Res :=
  if !s.isRun ∨ barBytes fn ≤ off then .next s
  else if off < 0x100000 then .next (s.writeGlb fn off v.toNat)
  else if off < 0x200000 then writeHif fn (off - 0x100000) v s
  else if off < 0x320000 then .next s
  else if off < 0x340000 then writeIng fn (off - 0x320000) v s
  else if off < 0x400000 then .next s
  else if off < 0x480000 then writeMem fn (off - 0x400000) v s
  else if off < 0x500000 then .next (s.writeFlc fn (off - 0x480000) v.toNat)
  else if off < 0x580000 then .next (s.writeFab fn (off - 0x500000) v.toNat)
  else if off < 0x5C0000 then writeMrd fn (off - 0x580000) v s
  else if off < 0x5E0000 then .next (s.writeSec fn (off - 0x5C0000) v)
  else if off < 0x600000 then writeRng fn (off - 0x5E0000) v s
  else if off < 0x680000 then .next s
  else if off < 0x700000 then writeFw fn (off - 0x680000) v s
  else if off < 0x800000 then writeCnt fn off v s
  else execDebugViewWrite off v s

end Sys2Proof.Machine
end

