-- ==== Sys2Proof/Machine/Power.lean ====
section
/-! DEFINITION. The power core, the Selvage pins, resets, the hold-up path, thermal control and the management link
(spec/16_module_hardware.md). -/

namespace Sys2Proof.Machine

def State.setPwr (s : State) (x : Pwr) : State := { s with pwr := x }

/-! ## AUX power (R304, R375, R376) -/

/-- The AUX domain is powered. -/
def Pwr.auxOn (p : Pwr) : Bool := p.aux12 || p.aux54

/-- AUX-good after a loss: the Meridian starts again, and a start event follows. -/
def execAuxGood (s : State) : Res :=
  .next (if s.pwr.auxOn then s
    else ({ s with now := 0, pwr := { s.pwr with aux12 := true } }).tryStart 0)

/-- One source of AUX power is lost; the other takes over when it was the one in use. -/
def execAuxSourceLoss (from12V : Bool) (s : State) : Res :=
  .next (let p := s.pwr
    if from12V then
      if !p.aux12 then s
      else if !p.aux54 ∧ p.v54 then
        (s.setPwr { p with aux12 := false, aux54 := true }).raise srcPower evPwrAuxSource 0xFF (leBytes 1 1)
      else if p.aux54 then s.setPwr { p with aux12 := false }
      else s
    else if p.aux54 ∧ p.aux12 then
      (s.setPwr { p with aux54 := false, v54 := false }).raise srcPower evPwrAuxSource 0xFF (leBytes 1 0)
    else s)

/-- AUX power is lost while the main rails are off: nothing but the stores survives. -/
def execAuxPowerLoss (s : State) : Res :=
  .next (if s.pwr.phase = .auxOnly ∨ s.pwr.phase = .offHeld then
      let s1 := s.railsOff .offHeld
      { s1 with
        mrd := { mrdInit with nextSeq := s1.mrd.nextSeq }
        pwr := { s1.pwr with
          aux12 := false, aux54 := false, v54 := false, latched := false, rom := false, dwell := none, dumpDone := false
          keysClr := false, selfRst := false, rstRel := false, reset := 0 } }
    else s)

/-! ## The boot (R377, R379, R357) -/

/-- The straps as the Thimble and the power core take them: what they report. -/
def State.strapEvents (s : State) (boot lc : Nat) : State :=
  let s1 := if boot < 2 then s.raise srcPower evPwrStrapReserved 0xFF (leBytes 1 boot) else s
  if lc ≠ s.sec.lifecycle then
    s1.raise srcThimble evSecLifecycleMismatch 0xFF (leBytes 1 lc ++ leBytes 1 s.sec.lifecycle)
  else s1

/-- The image in a slot boots: the signature of its manifest and its Thimble firmware part verify (R324, R357). -/
def State.bootable (s : State) (slot : Nat) : Bool := manSigned (s.fw.manIn slot) && s.slotVerifies slot [0]

/-- The slot that boots: B while a confirmed image is copied, else A; where it does not verify, the other one when it holds a
stitched or staged bundle with the same manifest; else none (R324, R357). -/
def State.bootSlot (s : State) : Option Nat :=
  let first := if s.fw.image = 2 then 1 else 0
  let other := decide (s.fw.manA = s.fw.manB) && (first == 1 || s.fw.slotB == 2)
  if s.bootable first then some first
  else if other && s.bootable (1 - first) then some (1 - first)
  else none

/-- The ROM boots: a basted image has failed (R366); the Thimble firmware of the slot that verifies runs, derives its keys
and verifies the other two boot parts, or the Thimble stays in ROM (R324, R357). -/
def State.romBoot (s : State) : State :=
  let t := if s.fw.image = 1 then s.failB else s
  match t.bootSlot with
  | none => { t with pwr := { t.pwr with rom := true } }
  | some k =>
    (({ t with
      fw := { t.fw with running := k, bootOk := t.slotVerifies k [1, 2] }
      sec := { t.sec with bootAt := t.now } }).derive).bootKeys

/-- 10 ms after the start event: the straps are latched and the ROM boots, or stays in ROM_SERVICE. -/
def execStrapLatch (pins : BitVec 10) (s : State) : Res :=
  .next (if s.pwr.phase = .auxOnly ∧ !s.pwr.latched ∧ s.pwr.auxOn then
      let n := pins.toNat
      let boot := field n 0 2
      let s1 := s.atLeast (s.pwr.stepAt + 10 * msNs)
      let s2 := s1.setPwr { s1.pwr with
        latched := true, boot := boot, slotId := field n 2 6, lc := field n 8 2, rom := boot == 2 }
      let s3 := s2.strapEvents boot (field n 8 2)
      if boot = 2 then s3 else s3.romBoot
    else s)

/-- The main rails come up, once the power core firmware runs: 54 V in range, the inlet at or below 45 °C. -/
def execMainRailsEnable (s : State) : Res :=
  .next (let p := s.pwr
    if p.phase = .auxOnly ∧ p.latched ∧ !p.rom ∧ s.fw.bootOk ∧ p.v54 ∧ p.inlet ≤ 45 then
      s.setPwr { p with phase := .sequence, mainOk := false }
    else s)

/-- Every main rail is in regulation. -/
def execMainGood (s : State) : Res :=
  .next (if s.pwr.phase = .sequence ∧ !s.pwr.mainOk then s.setPwr { s.pwr with mainOk := true, stepAt := s.now } else s)

/-- 10 ms after main-good: RUN. Both tiers are blanked, a pending tenant switch is repeated, tier C replays its dump,
rounds that a reset met abort, and the module waits for its load parts (R114, R198, R242, R344, R358, R377). `bad` and
`dumpBad` are pages of tier C that the examination finds failing (R242, R243). -/
def execRunEntry (bad dumpBad : List Nat) (s : State) : Res :=
  .next (if s.pwr.phase = .sequence ∧ s.pwr.mainOk then
      let s1 := s.atLeast (s.pwr.stepAt + 10 * msNs)
      let s2 := (s1.setPwr { s1.pwr with phase := .run, dwell := some s1.now }).blankAll
      let s3 := if s2.sec.pending then s2.eraseTierC.switchCommit else s2
      let s4 := ((s3.flashBoot bad dumpBad).settleBundle).1
      let s5 := (s4.setRng { s4.rng with running := List.range 64 }).abortAll causeReset
      ({ s5 with fw := { s5.fw with load := 1, waitFrom := s5.now } }.bootSecure)
    else s)

/-- The end of a dwell (R381): 20 µs into HOLDUP, 1 ms otherwise. -/
def execSelvageDwellEnd (s : State) : Res :=
  .next (match s.pwr.dwell with
    | none => s
    | some t =>
      let s1 := s.atLeast (t + (if s.pwr.phase = .holdup then 20 * usNs else 1 * msNs))
      s1.setPwr { s1.pwr with dwell := none })

/-! ## Power fail, hold-up (R378, R382) -/

/-- PWR_FAIL_N or undervoltage has acted. -/
def State.powerFail (s : State) : State :=
  let s1 := s.setPwr { s.pwr with v54 := false }
  match s.pwr.phase with
  | .sequence => s1.setPwr { s1.pwr with phase := .auxOnly, mainOk := false }
  | .run => s1.enterHoldup true
  | .holdup =>
    match s1.pwr.dump with
    | some d => s1.setPwr { s1.pwr with dump := some { d with fromBank := true } }
    | none => s1
  | _ => s1

def execPwrFailNAssert (s : State) : Res := .next s.powerFail

def execUndervoltage54v (s : State) : Res := .next s.powerFail

/-- The dump ends: keys are zeroised, the rails go off, the module holds, or starts again where nothing holds it; 54 V that returned while the bank
fed the dump counts at its end (R241). `left` and `count` are what became of the dump pages (R240). -/
def execDumpEnd (left : List Nat) (count : Nat) (s : State) : Res :=
  .next (if s.pwr.phase = .holdup then
      let fromBank := match s.pwr.dump with
        | some d => d.fromBank
        | none => false
      let s1 := (s.runDump left count).railsOff .offHeld
      let s2 := s1.setPwr { s1.pwr with dumpDone := true, keysClr := true }
      if s2.pwr.rstLow.isSome ∨ !s2.pwr.v54 ∨ s2.pwr.tripHold then s2
      else if s2.pwr.selfRst then s2.startEvent 4
      else if s2.pwr.rstRel then s2.startEvent 1
      else if fromBank then s2.startEvent 2
      else s2
    else s)

/-- The 54 V input has been in range for 100 ms: after a dump a start event, unless a reset or a trip holds the module. -/
def execV54Return (s : State) : Res :=
  .next (let s1 := s.setPwr { s.pwr with v54 := true }
    if s.pwr.phase = .offHeld ∧ s.pwr.dumpDone ∧ s.pwr.rstLow.isNone ∧ !s.pwr.tripHold then s1.startEvent 2 else s1)

/-! ## MOD_RESET_N (R382, R383) -/

/-- The reset acts in the phase it meets. -/
def State.modReset (s : State) : State :=
  match s.pwr.phase with
  | .auxOnly | .sequence => s.railsOff .offHeld
  | .run => s.enterHoldup false
  | _ => s

/-- MOD_RESET_N goes low for `lowNs`, or for good; a pulse between 100 ns and 1 µs acts or not, as it happens. -/
def execModResetNAssert (lowNs : Nat) (s : State) : Res :=
  .next (if s.pwr.rstLow.isSome ∨ lowNs < 100 then s
    else
      let b := if lowNs < 1000 then s.freeBool else (true, s)
      if b.1 then (b.2.setPwr { b.2.pwr with rstLow := some b.2.now, rstRel := false }).modReset else b.2)

/-- The release: a start event from OFF_HELD with 54 V in range; remembered while a dump runs. -/
def State.resetRelease (s : State) : State :=
  let s1 := s.setPwr { s.pwr with rstLow := none, reset := 0 }
  match s.pwr.phase with
  | .offHeld => if s1.pwr.v54 then s1.tryStart 1 else s1
  | .holdup => s1.setPwr { s1.pwr with rstRel := true }
  | _ => s1

def execModResetNRelease (s : State) : Res := .next (if s.pwr.rstLow.isSome then s.resetRelease else s)

/-- RESET reads 1 after 2 s, 2 after 60 s. -/
def State.resetFor (s : State) (sec code : Nat) : State :=
  match s.pwr.rstLow with
  | some t =>
    if s.pwr.phase = .offHeld then
      let s1 := s.atLeast (t + sec * nsPerSec)
      s1.setPwr { s1.pwr with reset := max s1.pwr.reset code }
    else s
  | none => s

def execResetHeldTimeout (s : State) : Res := .next (s.resetFor 2 1)

def execResetStuckTimeout (s : State) : Res := .next (s.resetFor 60 2)

/-- An answer of the resource tree to a refused action. -/
abbrev mgmtRefused : Nat := 0xFFFF

/-- The management reset action: an assertion of 1 µs, refused while MOD_RESET_N is low (R383). -/
def State.resetAction (s : State) : State :=
  if s.pwr.rstLow.isSome then s.put (.mgmt mgmtRefused [])
  else
    let s1 := s.modReset
    (s1.resetRelease).put (.mgmt stOk [])

/-! ## Thermal control (R386 to R388) -/

/-- The sensors read anew. -/
def State.sense (s : State) (junction inlet : Nat) : State := s.setPwr { s.pwr with junction := junction, inlet := inlet }

/-- The clock is controlled while the main rails are on. -/
def State.rails (s : State) : Bool := s.pwr.phase == .run || s.pwr.phase == .sequence

/-- A junction at 100 °C or the inlet at 45 °C. -/
def execThermalAlert (junction inlet : Nat) (s : State) : Res :=
  .next (let s1 := s.sense junction inlet
    if s1.rails ∧ !s1.pwr.alert ∧ (100 ≤ junction ∨ 45 ≤ inlet) then
      (s1.setPwr { s1.pwr with alert := true }).raise srcPower evPwrThrottle 0xFF (leBytes 1 junction ++ leBytes 1 inlet)
    else s1)

/-- Every 10 ms of the condition. -/
def execThrottleStepDown (s : State) : Res :=
  .next (if s.rails ∧ s.pwr.alert ∧ (100 ≤ s.pwr.junction ∨ 45 ≤ s.pwr.inlet) then
      (s.setPwr { s.pwr with ceiling := max 925 (s.pwr.ceiling - 25) }).settleThrottle
    else s)

/-- Every 100 ms of cool readings. -/
def execThrottleStepUp (junction inlet : Nat) (s : State) : Res :=
  .next (let s1 := s.sense junction inlet
    if s1.rails ∧ junction < 95 ∧ inlet < 43 then
      (s1.setPwr { s1.pwr with alert := false, ceiling := min 1850 (s1.pwr.ceiling + 25) }).settleThrottle
    else s1)

/-- The thermal trip: HOLDUP from main power, then OFF_HELD. -/
def execThermalTrip (junction inlet : Nat) (s : State) : Res :=
  .next (let s1 := s.sense junction inlet
    if 110 ≤ junction ∨ 60 ≤ inlet then
      match s1.pwr.phase with
      | .run => (s1.setPwr { s1.pwr with tripped := true, tripHold := true }).enterHoldup false
      | .auxOnly | .sequence => (s1.setPwr { s1.pwr with tripped := true, tripHold := true }).railsOff .offHeld
      | .holdup => s1.setPwr { s1.pwr with tripped := true, tripHold := true }
      | .offHeld => s1
    else s1)

/-! ## Fuses -/

/-- FACTORY to DEPLOYED, one way (R3). -/
def execFusingToDeployed (s : State) : Res :=
  .next (if s.sec.fused = .factory then s.setSec { s.sec with fused := .deployed } else s)

/-! ## The pins (R379 to R381) -/

/-- The meaning of the pins in force; none during a dwell. -/
inductive PinSet where
  | strap | run | holdup
deriving DecidableEq, Repr

def State.pinSet (s : State) : Option PinSet :=
  if s.pwr.dwell.isSome then none
  else match s.pwr.phase with
    | .auxOnly | .sequence => some .strap
    | .run => some .run
    | .holdup | .offHeld => some .holdup

/-- E_LEVEL. -/
def State.eLevel (s : State) : Nat :=
  let e := twoEnergy s.pwr.cMeas s.pwr.bankMv / (2 * 10 ^ 9)
  if e ≤ 70 then 0 else min 15 ((e - 70) / 16)

/-- MGMT_ALERT_N is low while the module waits for its load parts, and in RESET_STUCK (R383, R392). -/
def State.mgmtAlert (s : State) : Bool := s.fw.load == 1 || s.fw.load == 2 || s.pwr.reset == 2

/-- What the module drives on pin `k`; none where it drives nothing. -/
def State.pin (s : State) (k : Nat) : Option Bool :=
  match s.pinSet, k with
  | some .run, 0 => some (!s.mgmtAlert)
  | some .run, 1 => some (bit s.pwr.bank 0)
  | some .run, 2 => some (bit s.pwr.bank 1)
  | some .run, 3 => some (!s.pwr.alert)
  | some .run, 4 => some (s.fw.load == 4)
  | some .run, 5 => some (decide (s.sec.lifecycle < 2))
  | some .run, 11 => some s.mrd.ppsOut
  | some .holdup, 0 => some s.pwr.dump.isSome
  | some .holdup, 1 => some s.pwr.dumpDone
  | some .holdup, 6 => some s.pwr.keysClr
  | some .holdup, k => if 2 ≤ k ∧ k ≤ 5 then some (bit s.eLevel (k - 2)) else none
  | _, _ => none

/-! ## The management link (R389 to R392) -/

/-- What a health read at a register's offset returns: those that R390 names, as the operator sees them, and the
straps (R379). -/
def State.health (s : State) (off : Nat) : Option Nat :=
  match off with
  | 0x600000 => some s.pwrStat
  | 0x600004 => some s.pwrStrap
  | 0x600008 => some s.pwrTemp
  | 0x60000C => some (s.pwrPower 0)
  | 0x680000 => some s.fwStat
  | 0x0 => some s.glbId
  | 0x5C0000 => some s.secStat
  | _ => none

/-- A health read, served in every phase while AUX power is good. -/
def execMgmtHealthRead (off : Nat) (s : State) : Res :=
  .next (if !s.pwr.auxOn then s
    else match s.health off with
      | some v => s.put (.mgmt stOk (leBytes 4 v))
      | none => s.put (.mgmt mgmtRefused []))

/-- The envelope verifies under OPERATOR_KEY and its SEQ is new (R391). -/
def State.envelopeOk (s : State) (env : Envelope) : Bool :=
  match s.sec.opKey with
  | none => false
  | some k =>
    decide (s.sec.seqFloor < env.seq.toNat)
      && ecdsaVerify k (sha384 (ascii "LLY-MGMT" ++ leBytes 8 env.seq.toNat ++ env.request)) env.signature

/-- The crash dump actions on the link: bytes that a read returns are the answer's body. -/
def State.mgmtDump (s : State) (d : Bytes) : State :=
  if !dumpFieldOk d then s.put (.mgmt stFwField [])
  else if bit (byteAt d 8) 1 then (s.startCapture 3 0xFFFF none).put (.mgmt stOk [])
  else match s.fw.dump with
    | none => s.put (.mgmt stFwNoDump [])
    | some x =>
      let s1 := s.put (.mgmt stOk ((List.range (le d 32 4)).map (fun i => x.byte (le d 24 8 + i))))
      if bit (byteAt d 8) 0 then { s1 with fw := { s1.fw with dump := none } } else s1

/-- FW_STAGE on the link. -/
def State.mgmtStage (s : State) (d piece : Bytes) : State :=
  let st := s.stageState d
  if !s.flashReady then s.put (.mgmt mgmtRefused [])
  else if !stageFieldOk d (s.fw.bound d) then s.put (.mgmt stFwField [])
  else if st ≠ stOk then s.put (.mgmt st [])
  else
    let r := s.stagePiece d piece none
    r.1.put (.mgmt r.2 [])

/-- Requests that no descriptor is like (notes/assumptions/47.md): the reset action, and the read of an operator's view of
R341 at the offset in bytes 8 to 15. -/
abbrev mgmtReset : Nat := 0xF0
abbrev mgmtView : Nat := 0xF1

/-- A word of the operator's views over the link (R341). -/
def State.mgmtRead (s : State) (off : Nat) : State :=
  if s.isRun ∧ viewOffset 0 off then
    let v := s.readView off
    v.2.put (.mgmt stOk (leBytes 4 v.1))
  else s.put (.mgmt mgmtRefused [])

/-- What the lifecycle state permits on the link beside health reads: everything while no key is lost, crash-dump reads and
reset in FAULT_SECURE, nothing in RETIRED (R3). -/
def State.mgmtPermits (s : State) (d : Bytes) : Bool :=
  match s.sec.lifecycle with
  | 2 => byteAt d 0 == mgmtReset || (byteAt d 0 == 0x95 && byteAt d 8 == 0)
  | 3 => false
  | _ => true

/-- The action that a request names: the 64 bytes of the like descriptor, then its data (notes/assumptions/47.md). -/
def State.mgmtAction (s : State) (req : Bytes) : State :=
  let d := slice req 0 64
  let data := req.drop 64
  match byteAt d 0 with
  | 0x91 =>
    if s.isRun ∧ !s.sec.switchRun then (s.switchStart false).put (.mgmt stOk []) else s.put (.mgmt mgmtRefused [])
  | 0x93 => s.mgmtStage d data
  | 0x95 => s.mgmtDump d
  | 0x96 =>
    let r := s.setOperatorKey (slice data 0 97)
    r.1.put (.mgmt r.2 [])
  | 0xF0 => s.resetAction
  | 0xF1 => s.mgmtRead (le d 8 8)
  | _ => s.put (.mgmt mgmtRefused [])

/-- A management action in an operator envelope: refused where the envelope or the lifecycle state does not let it in. -/
def State.enveloped (s : State) (env : Envelope) : State :=
  if !s.thimbleUp then s
  else if !s.mgmtPermits env.request ∨ !s.envelopeOk env then s.put (.mgmt mgmtRefused [])
  else (s.setSec { s.sec with seqFloor := env.seq.toNat }).mgmtAction env.request

def execMgmtEnvelopedRequest (env : Envelope) (s : State) : Res := .next (s.enveloped env)

/-- The management reset action in its envelope (R383, R391). Another request in the envelope is none of this command's. -/
def execMgmtResetAction (env : Envelope) (s : State) : Res :=
  .next (if byteAt env.request 0 = mgmtReset then s.enveloped env else s)

end Sys2Proof.Machine
end

