-- ==== Sys2Proof/Machine/Shares.lean ====
section
/-! DEFINITION. The committee roster, share-sums and the share combiner (spec/06_masks_and_shares.md, R126 to R137). -/

namespace Sys2Proof.Machine

/-! ## Arithmetic over F61 (R135) -/

def f61Mul (a b : Nat) : Nat := a * b % f61P

def f61Sub (a b : Nat) : Nat := (a + f61P - b % f61P) % f61P

/-- a^(p−2) mod p. -/
def f61Inv (a : Nat) : Nat := powBits f61P (a % f61P) (msbBits 61 (f61P - 2)) 1

/-- The coefficient of member `m` in the interpolation over `js`, at `x`. -/
def lagrange (js : List Nat) (m x : Nat) : Nat :=
  let others := js.filter (· != m)
  let num := others.foldl (fun a k => f61Mul a (f61Sub x k)) 1
  let den := others.foldl (fun a k => f61Mul a (f61Sub m k)) 1
  f61Mul num (f61Inv den)

/-- The interpolation at `x` of the share-sums of `js` in coordinate `c`. -/
def interpolate (sig : Nat → List Nat) (js : List Nat) (x c : Nat) : Nat :=
  js.foldl (fun a j => (a + f61Mul (lagrange js j x) ((sig j).getD c 0)) % f61P) 0

/-! ## ROUND_ROSTER (R126, R131) -/

/-- Entry `j` (from 1) of a roster. -/
def rosterKey (roster : Bytes) (j : Nat) : Bytes := slice roster (100 * (j - 1) + 3) 97

/-- The roster has the sealed digest and the form of R126. -/
def rosterOk (pol : Policy) (roster : Bytes) : Bool :=
  decide (sha384 roster = pol.digest) && (List.range pol.committee).all (fun i =>
    byteAt roster (100 * i) == i + 1 && zeroAt roster (100 * i + 1) 2 && (ecParse (rosterKey roster (i + 1))).isSome)

/-- ROUND_ROSTER: `roster` is what the module reads from host memory. A LENGTH other than 100 × COMMITTEE_N cannot hold the
roster and ends with ST_SHC_ROSTER before the read (notes/assumptions/70.md). -/
def execRoundRoster (op : Nat) (roster : Bytes) (s : State) : Res :=
  .next (onReady 0x35 op s (fun o =>
    let r := o.round
    let x := s.round r
    let n := 100 * x.pol.committee
    if x.st.code < 2 ∨ 5 < x.st.code ∨ x.roster.isSome then s.finish op stAggState
    else if le o.bytes 24 4 ≠ n then s.finish op stShcRoster
    else if !s.reachable o.fn then s.finish op stHifHostUnreachable
    else
      let b := slice roster 0 n
      if rosterOk x.pol b then (s.setRound r { x with roster := some b }).finish op stOk else s.finish op stShcRoster))

/-! ## SHARE_SUM (R130 to R133) -/

def envelopeHeader : Nat := 160

/-- The first failing check of R132 that needs no envelope. -/
def sumState (x : Round) (length : Nat) : Nat :=
  if x.st.code < 5 ∨ 7 < x.st.code then stAggState
  else if x.st ≠ .sealed ∨ !x.collOpen then stShcClosed
  else if x.roster.isNone then stShcNoRoster
  else if length ≠ 176 + 8 * x.pol.lambda then stShcFormat
  else stOk

/-- The first failing check of R132 on the header `h`. -/
def sumHeader (x : Round) (h : Bytes) : Nat :=
  let m := byteAt h 1
  if byteAt h 0 ≠ 1 ∨ le h 2 2 ≠ x.pol.lambda ∨ !zeroAt h 153 7 then stShcFormat
  else if m = 0 ∨ x.pol.committee < m then stShcMember
  else if x.staged.any (fun (e : Staged) => e.member == m) then stShcDuplicate
  else if le h 4 4 ≠ x.pol.tag ∨ slice h 8 48 ≠ x.digest then stShcBinding
  else stOk

/-- A rejection counts, but in an IDLE slot, whose registers read 0 (R120, R134). -/
def State.rejectSum (s : State) (r op status : Nat) : State :=
  let x := s.round r
  (if x.st = .idle then s else s.setRound r { x with rejected := min (x.rejected + 1) 255 }).finish op status

/-- Collection closes and the round asks for the combiner (R133). -/
def Round.close (x : Round) : Round := { x with collOpen := false, wants := true }

/-- SHARE_SUM: `header` is the first 160 bytes of the envelope in host memory. A staged one holds no token. -/
def execShareSum (op : Nat) (header : Bytes) (s : State) : Res :=
  .next (onReady 0x34 op s (fun o =>
    let r := o.round
    let x := s.round r
    let st := sumState x (le o.bytes 24 4)
    if st ≠ stOk then s.rejectSum r op st
    else if !s.reachable o.fn then s.finish op stHifHostUnreachable
    else
      let h := slice header 0 envelopeHeader
      let st2 := sumHeader x h
      if st2 ≠ stOk then s.rejectSum r op st2
      else
        let staged := x.staged ++ [⟨byteAt h 1, op, h⟩]
        let y := { x with
          staged := staged, accepted := x.accepted + 1
          thrAt := if x.thrAt = none ∧ x.pol.threshold ≤ staged.length then some s.now else x.thrAt }
        let z := if x.pol.committee ≤ staged.length then y.close else y
        (s.setRound r z).setOp op { o with phase := .running, tok := .none }))

/-- 200 ms after the staged count reached THRESHOLD. -/
def execShareCollectionTimeout (p slot : Nat) (s : State) : Res :=
  .next (let r := 2 * p + slot
    let x := s.round r
    match x.thrAt with
    | some t =>
      if slot < 2 ∧ x.st = .sealed ∧ x.collOpen then (s.atLeast (t + 200 * msNs)).setRound r x.close else s
    | none => s)

/-! ## SHARE_COMBINER_SERVE (R14, R134 to R137) -/

/-- The round that is served next: the earliest SEAL, then the lowest round ID (R14). -/
def State.nextServed (s : State) : Option Nat :=
  ((List.range 64).filter (fun r => (s.round r).wants && (s.round r).st == .sealed)).foldl (fun a r =>
    match a with
    | none => some r
    | some b => if (s.round r).pol.tSeal < (s.round b).pol.tSeal then some r else some b) none

/-- One envelope opened (R129, R134): its share-sum, or its rejection. The header that must not have changed is everything
before the ciphertext, bytes 0 to 159 of R130, ENC and the reserved bytes among them (notes/assumptions/71.md). -/
def openEnvelope (sk : Option Nat) (x : Round) (e : Staged) (env : Option Bytes) : Option (List Nat) × Nat :=
  match sk, env, x.roster with
  | some d, some b, some ros =>
    if b.length ≠ 176 + 8 * x.pol.lambda ∨ b.take envelopeHeader ≠ e.header then (none, stShcOpen)
    else
      match hpkeOpen d x.pub (rosterKey ros e.member) (slice b 56 97) (slice b 0 56) (b.drop envelopeHeader) with
      | none => (none, stShcOpen)
      | some plain =>
        let v := (piecesOf 8 plain).map leNat
        if v.any (fun y => decide (f61P ≤ y)) then (none, stShcNoncanonical) else (some v, stOk)
  | _, _, _ => (none, stShcOpen)

/-- The members in ascending order. -/
def ascending (l : List Nat) : List Nat := (List.range 256).filter (fun m => l.contains m)

/-- S, or the lowest failing member of a degree check (0 where only the range check failed): R135, R136. -/
def reconstruct (x : Round) (opened : List (Nat × List Nat)) : List Nat ⊕ Nat :=
  let o := ascending (opened.map (·.1))
  let js := o.take x.pol.threshold
  let es := o.drop x.pol.threshold
  let sig := fun m => (tfind opened m).getD []
  let cs := List.range x.pol.lambda
  let sums := cs.map (interpolate sig js 0)
  match es.find? (fun e => cs.any (fun c => (sig e).getD c 0 != interpolate sig js e c)) with
  | some e => .inr e
  | none => if sums.any (fun v => decide (x.cohort * (2 ^ 32 - 1) < v)) then .inr 0 else .inl sums

/-- Rejected envelopes leave the staged ones and complete. -/
def State.rejectStaged (s : State) (r : Nat) (e : Staged) (status : Nat) : State :=
  let x := s.round r
  (s.setRound r { x with
    staged := x.staged.filter (fun (y : Staged) => y.member != e.member), accepted := x.accepted - 1
    rejected := min (x.rejected + 1) 255 }).finish e.op status

/-- S handed to the Panels: UNMASKING, the expansion dealt (R110, R137, R138). -/
def State.handOver (s : State) (r : Nat) (sums : List Nat) : State :=
  let x := s.round r
  let seed := if x.pol.ring64 then sums else sums.map (· % 2 ^ 32)
  let s1 := x.staged.foldl (fun s (e : Staged) => s.finish e.op stOk)
    (s.setRound r { x with staged := [], wants := false, thrAt := none, seed := seed, unmask := .expanding, ahead := s.nextOp })
  (s1.enterRound r .unmasking).deal r (List.range (ceilDiv x.pol.vlen 512))

/-- The combiner serves the next round: `envelopes` is what it re-reads from host memory, by member. A round holds the
combiner from its first decryption until S is handed on (R14), which is inside this one step. OPENED keeps the count of the
round served last until that round ends (notes/assumptions/72.md). -/
def execShareCombinerServe (envelopes : List (Nat × Bytes)) (s : State) : Res :=
  .next (match s.nextServed with
    | none => s
    | some r =>
      let x := s.round r
      let k := s.slot (104 + r)
      let sk := if k.usable engShc (r / 2) then some (beNat k.key) else none
      let live := s.reachable (r / 2 + 1)
      let res := x.staged.map (fun (e : Staged) =>
        (e, openEnvelope sk x e (if live then tfind envelopes e.member else none)))
      let s1 := res.foldl (fun s (e : Staged × (Option (List Nat) × Nat)) =>
        if e.2.1.isNone then s.rejectStaged r e.1 e.2.2 else s) s
      let opened := res.filterMap (fun (e : Staged × (Option (List Nat) × Nat)) => e.2.1.map (fun v => (e.1.member, v)))
      let s2 := { s1 with shc := ⟨r, false, opened.length⟩ }
      if opened.length < x.pol.threshold then
        s2.setRound r { s2.round r with collOpen := true, wants := false, thrAt := none }
      else
        match reconstruct x opened with
        | .inl sums => s2.handOver r sums
        | .inr m =>
          (s2.abortRound r causeShareInconsistent).raise srcCombiner evShcInconsistent (r / 2)
            (leBytes 1 r ++ leBytes 2 m))

end Sys2Proof.Machine
end

