-- ==== Sys2Proof/Machine/Tile.lean ====
section
/-! DEFINITION. Tile programs (R54 to R66, R77 to R83, R88): TILE_RUN, the eight tile commands, their retirement, barriers,
and pages of the spill area (R52). -/

namespace Sys2Proof.Machine

/-! ## TILE_RUN (R54, R55, R340) -/

/-- The address of the parameter entry of the `i`-th named Panel `k` (R55). PARAMS with a base register takes the one that
the Panel still holds (notes/assumptions/63.md). -/
def State.paramAddr (s : State) (o : Op) (i k : Nat) : Nat := ((s.panel k).addr (le o.bytes 32 8)).addr + 32 * i

/-- The address of the program for a Panel whose parameter entry is `entry` (R54, R55). -/
def progAddr (o : Op) (entry : Bytes) : Nat :=
  let a := addrAt o.bytes 8
  if a.base = 0 then a.addr else a.addr + le entry (8 * (a.base - 1)) 8

/-- The first status of the table of R65, then of R100 and R170, among those of the accesses of a TILE_RUN. -/
def firstAccess (l : List Nat) : Nat :=
  if l.contains stTileSpace then stTileSpace else if l.contains stAggLocked then stAggLocked
  else if l.contains stGruLocked then stGruLocked else stOk

/-- The accesses of a TILE_RUN to its parameter block, one for each named Panel, and to a program without a base register. -/
def State.runAccess (s : State) (p : Nat) (o : Op) : List Nat :=
  let prog := addrAt o.bytes 8
  let par := addrAt o.bytes 32
  o.panels.mapIdx (fun i k => s.accStatus p par [(s.paramAddr o i k, 32)] false)
    ++ (if prog.base = 0 then [s.accStatus p prog [(prog.addr, 8 * le o.bytes 16 4)] false] else [])

/-- The checks of a TILE_RUN after those of R258, in the order of the table of R65 (notes/assumptions/21.md). PROG names a
tier with LDIM 0; PARAMS may lie in scratch space, where each Panel finds its entry in its own (R54). -/
def State.tileRunStatus (s : State) (p : Nat) (o : Op) : Nat :=
  let d := o.bytes
  let prog := addrAt d 8
  let par := addrAt d 32
  let n := le d 16 4
  let acc := firstAccess (s.runAccess p o)
  if !zeroAt d 20 4 ∨ !zeroAt d 40 24 then stTileOpcode
  else if !prog.isTier ∨ prog.ldim ≠ 0 ∨ par.space = 3 ∨ n = 0 ∨ 65536 < n then stTileField
  else if prog.addr % 16 ≠ 0 ∨ par.addr % 16 ≠ 0 then stTileAlign
  else if acc = stTileSpace then stTileSpace
  else if o.panels.any (fun k => !(s.cfg p).panels.contains k || (s.panel k).health == 3) then stTilePanel
  else acc

/-- A Panel named by a TILE_RUN is not free for it yet: a program runs, an expansion is ahead (R15), or an earlier TILE_RUN
waits for the same Panel. -/
def State.panelBusy (s : State) (op n : Nat) : Bool :=
  (s.panel n).run.isSome
    || (s.panel n).sweeps.any (fun (w : Sweep) => decide (w.ahead ≤ op))
    || (match (s.panel n).sweeps with | _ :: _ => decide ((s.panel n).pc ≠ 0) | [] => false)
    || s.runWaits n op

/-- The digest of a program enters the partition's log (R340). -/
def State.logProgram (s : State) (p : Nat) (dig : Bytes) : State :=
  let x := s.part p
  if x.log.contains dig then s
  else s.setPart p { x with log := x.log ++ [dig], chain := sha384 (x.chain ++ dig) }

/-- The accesses of a TILE_RUN to the lines of ranges of a tier: each line is read once. -/
def State.readRanges (s : State) (p tier : Nat) (l : List (Nat × Nat)) : State × ReadRes :=
  if s.memKey p tier then ((l.flatMap (fun r => linesOf r.1 r.2)).eraseDups).foldl (readLine p tier) (s, readInit)
  else (s, keyRefused 0)

/-- The parameter entry of the `i`-th named Panel `k` as it reads now (R55). -/
def State.paramEntry (s : State) (p : Nat) (o : Op) (i k : Nat) : Bytes :=
  let par := addrAt o.bytes 32
  if par.space = 0 then (List.range 32).map (fun j => s.scratchByte p k (s.paramAddr o i k + j))
  else s.ptClean p par.tier (s.paramAddr o i k) 32

/-- One Panel starts the program with its entry of the parameter block. -/
def startPanel (op : Nat) (prog : List DWord) (entry : Bytes) (note : List Nat) (x : Panel) : Panel :=
  { x.free with
    run := some op, prog := prog, bases := [le entry 0 8, le entry 8 8, le entry 16 8], note := note }

/-- The words of a program from its bytes. -/
def progWords (bs : Bytes) : List DWord := (List.range (bs.length / 8)).map (fun i => BitVec.ofNat 64 (le bs (8 * i) 8))

/-- A TILE_RUN whose parameter entries and program bytes are read, one each for its Panels, with the statuses met: the
programs not in the log enter it, or it is full (R340), and every Panel starts. -/
def State.startRun (s : State) (op p : Nat) (o : Op) (entries progs : List Bytes) (met : List Nat) : State :=
  let fresh := ((progs.map sha384).eraseDups).filter (fun d => !(s.part p).log.contains d)
  if !fresh.isEmpty ∧ 4096 < (s.part p).log.length + fresh.length then s.finish op stSecLogFull (tileDetail [] stSecLogFull)
  else
    let s1 := (fresh.foldl (fun s d => s.logProgram p d) s).running op o
    let note := met.filter isTransient
    let s2 := (o.panels.zip (List.range o.panels.length)).foldl (fun s e =>
      s.setPanel e.1 (startPanel op (progWords (progs.getD e.2 [])) (entries.getD e.2 []) (if e.2 = 0 then note else [])
        (s.panel e.1))) s1
    s2.settleRun op

/-- TILE_RUN: its checks, then its Panels free, its parameter block, its program and the start. A program behind a base
register is checked when the registers are known. -/
def execTileRun (op : Nat) (errs : List LineErr) (s0 : State) : Res :=
  .next (let s := s0.arise errs
    onReady 0x10 op s (fun o =>
    let p := o.fn - 1
    let n := 8 * le o.bytes 16 4
    let prog := addrAt o.bytes 8
    let par := addrAt o.bytes 32
    let st := s.tileRunStatus p o
    let refuse := fun (s : State) (st : Nat) => s.finish op st (tileDetail [] st)
    if st ≠ stOk then refuse s st
    else if o.panels.any (s.panelBusy op) then s
    else
      let rq := if par.space = 0 then (s, readInit)
        else s.readRanges p par.tier (o.panels.mapIdx (fun i k => (s.paramAddr o i k, 32)))
      let entries := o.panels.mapIdx (fun i k => rq.1.paramEntry p o i k)
      let starts := entries.map (progAddr o)
      let acc := firstAccess (starts.map (fun a => s.accStatus p prog [(a, n)] false))
      if stops [rq.2.status] then refuse rq.1 rq.2.status
      else if entries.any (fun e => !zeroAt e 24 8) then refuse rq.1 stTileOpcode
      else if acc ≠ stOk then refuse rq.1 acc
      else
        let rp := rq.1.readRanges p prog.tier (starts.map (fun a => (a, n)))
        let met := [rp.2.status, rq.2.status]
        if stops met then refuse rp.1 (mergeStatus met)
        else rp.1.startRun op p o entries (starts.map (fun a => rp.1.ptClean p prog.tier a n)) met))

/-! ## LOAD_ACT (R48, R49, R58) -/

/-- Formats that may chain arrays (R50, R65). -/
def chainable (f : Nat) : Bool := f == fmtInt4 || isFloat f

/-- K indices of one array: 64, or 128 in 4-bit mode. -/
def arrayK (f : Nat) : Nat := if is4bit f then 128 else 64

/-- Columns of an array: 16, or 32 in 4-bit mode. -/
def arrayCols (f : Nat) : Nat := if is4bit f then 32 else 16

/-- Field ranges of LOAD_ACT. -/
def loadActFields (w : Nat) : Bool :=
  let f := fmtOf (field w 0 8)
  let deep := field w 44 2
  decide (field w 55 5 = 0) && decide (field w 52 2 < 2) && decide (deep < 3) && (deep == 0 || chainable f)
    && decide (1 ≤ field w 34 10) && decide (field w 34 10 ≤ arrayK f * 2 ^ deep) && decide (field w 29 5 < arrayCols f)

/-- Address words of a command in order: field ranges and alignment (R56, R65); 0 where they stand. -/
def addrWordStatus (ws : List Nat) : Nat :=
  if ws.any (fun v => field v 62 2 == 3) then stTileField
  else if ws.any (fun v => field v 0 4 != 0) then stTileAlign
  else stOk

/-- Elements of a row of group `g` that belong to arrays above the last one loaded are zeros (R58). -/
def maskRow (f deep narr g : Nat) (cs : List Nat) : List Nat :=
  cs.mapIdx (fun k c => if k / arrayK f + g * 2 ^ deep < narr then c else 0)

/-- The set named by ASET. -/
def Panel.setOf (x : Panel) (a : Nat) : ActSet := if a = 0 then x.set0 else x.set1

def Panel.putSet (x : Panel) (a : Nat) (v : ActSet) : Panel := if a = 0 then { x with set0 := v } else { x with set1 := v }

/-- The activation set is loaded and the command is in flight until it retires. -/
def State.loadSet (s : State) (n aset words : Nat) (v : ActSet) (pages : List Nat) : State :=
  let x := s.panel n
  let y := { x.putSet aset v with inflight := x.inflight ++ [⟨1, x.pc, aset, pages⟩] }
  (s.setPanel n y).advance n words none

/-- LOAD_ACT from memory. -/
def State.loadMemory (s : State) (p n : Nat) (w : Nat) (ws : List Nat) : State :=
  let x := s.panel n
  let f := fmtOf (field w 0 8)
  let bs := bsOf (field w 0 8)
  let narr := field w 46 6 + 1
  let deep := field w 44 2
  let klen := field w 34 10
  let nc := field w 29 5 + 1
  let aset := field w 54 1
  let rows := ceilDiv narr (2 ^ deep) * nc
  let a := x.addr (ws.getD 1 0)
  let b := x.addr (ws.getD 2 0)
  let ra := rowsOf a rows (packedBytes f klen)
  let rb := if bs then rowsOf b rows (ceilDiv klen 32) else []
  let chk := mergeStatus [s.accStatus p a ra false, if bs then s.accStatus p b rb false else stOk]
  let pages := pagesOf a ra ++ (if bs then pagesOf b rb else [])
  if chk ≠ stOk then s.tileStop n chk
  else if x.flies 1 ∨ x.passes.any (fun (y : PassRec) => !y.done && y.set == aset) then s
  else match s.missing p n pages with
    | some pg => s.setPanel n { x with stall := some pg }
    | none =>
      let old := State.staleBlocks x.unsynced (s.usePages p n pages false)
      let m1 := State.tileRows p n a old.1 ra old.2
      let m2 := State.tileRows p n b old.1 rb m1.1
      let s1 := m2.1.tileStatuses n x.pc (m1.2.2 ++ m2.2.2)
      if stops (m1.2.2 ++ m2.2.2) then s1.settle n
      else
        let c := State.codeRows p f klen m1.2.1 s1
        let codes := c.1.mapIdx (fun i r => maskRow f deep narr (i / nc) r)
        let scales := m2.2.1.map (fun r => r.map (·.toNat))
        c.2.loadSet n aset ws.length ⟨⟨field w 0 8, klen, codes, scales⟩, narr, nc, deep, false⟩ pages

/-- LOAD_ACT from the seed path (R137, R138): elements 64κ to 64κ + 63 of S in column 0 of each array. -/
def State.loadSeed (s : State) (n : Nat) (w : Nat) (ws : List Nat) : State :=
  let x := s.panel n
  match x.sweeps with
  | [] => s
  | sw :: _ =>
    let aset := field w 54 1
    if x.flies 1 ∨ x.passes.any (fun (y : PassRec) => !y.done && y.set == aset) then s
    else
      let row := ((s.round sw.round).seed.drop (64 * (x.pc / 6))).take 64
      s.loadSet n aset ws.length ⟨⟨field w 0 8, 64, List.replicate 64 row, []⟩, 64, 1, 0, false⟩ []

/-- LOAD_ACT. -/
def execLoadAct (panel : Nat) (errs : List LineErr) (s0 : State) : Res :=
  .next (let s := s0.arise errs
    issueTile 1 panel s (fun p own ws =>
    let w := ws.headD 0
    let fs := fmtaStatus (field w 0 8) true
    if !loadActFields w then s.tileStop panel stTileField
    else if fs ≠ stOk then s.tileStop panel fs
    else if own then s.loadSeed panel w ws
    else if field w 52 2 ≠ 0 then s.tileStop panel stTilePrivateSource
    else
      let st := addrWordStatus (ws.drop 1)
      if st ≠ stOk then s.tileStop panel st else s.loadMemory p panel w ws))

/-! ## STREAM_W (R58 to R60) -/

/-- Rows of a weight stream. -/
def rowsM (msel : Nat) : Nat := 64 * 2 ^ msel

/-- Field ranges of STREAM_W. -/
def streamFields (w : Nat) : Bool :=
  let f := fmtOf (field w 0 8)
  decide (field w 55 5 = 0) && decide (field w 53 2 < 2) && (field w 52 1 == 0 || field w 53 2 == 1)
    && decide (1 ≤ field w 42 10) && decide (field w 42 10 ≤ arrayK f * (if chainable f then 4 else 1))
    && !(is4bit f && field w 32 2 == 3)

/-- STREAM_W from memory. -/
def State.streamMemory (s : State) (p n : Nat) (w : Nat) (ws : List Nat) : State :=
  let x := s.panel n
  let f := fmtOf (field w 0 8)
  let bs := bsOf (field w 0 8)
  let klen := field w 42 10
  let msel := field w 32 2
  let a := x.addr (ws.getD 1 0)
  let b := x.addr (ws.getD 2 0)
  let ra := rowsOf a (rowsM msel) (packedBytes f klen)
  let rb := if bs then rowsOf b (rowsM msel) (ceilDiv klen 32) else []
  let chk := mergeStatus [s.accStatus p a ra false, if bs then s.accStatus p b rb false else stOk]
  let pages := pagesOf a ra ++ (if bs then pagesOf b rb else [])
  if chk ≠ stOk then s.tileStop n chk
  else if x.passes.any (fun (y : PassRec) => !y.done) then s
  else match s.missing p n pages with
    | some pg => s.setPanel n { x with stall := some pg }
    | none =>
      let old := State.staleBlocks x.unsynced (s.usePages p n pages false)
      let m1 := State.tileRows p n a old.1 ra old.2
      let m2 := State.tileRows p n b old.1 rb m1.1
      let s1 := m2.1.tileStatuses n x.pc (m1.2.2 ++ m2.2.2)
      if stops (m1.2.2 ++ m2.2.2) then s1.settle n
      else
        let c := State.codeRows p f klen m1.2.1 s1
        let str : Stream := ⟨⟨field w 0 8, klen, c.1, m2.2.1.map (fun r => r.map (·.toNat))⟩, msel, false, 0, [], pages⟩
        (c.2.setPanel n { c.2.panel n with streams := str :: (c.2.panel n).streams }).advance n ws.length none

/-- STREAM_W from the Matrix Loom (R138): the blocks dealt to the arrays, chunk κ. -/
def State.streamLoom (s : State) (n : Nat) (w : Nat) (ws : List Nat) : State :=
  let x := s.panel n
  match x.sweeps with
  | [] => s
  | sw :: _ =>
    if x.passes.any (fun (y : PassRec) => !y.done) ∨ (!s.loom.failed ∧ !s.loomTurn sw.round) then s
    else if s.loom.failed then s.loomStall sw.round
    else
      let str : Stream := ⟨⟨field w 0 8, 64, [], []⟩, field w 32 2, true, x.pc / 6, sw.blocks, []⟩
      let rows := (sw.blocks.map (fun (b : Nat × Nat) => min 512 ((s.round sw.round).pol.vlen - 512 * b.2))).sum
      ((s.setPanel n { x with streams := str :: x.streams }).advance n ws.length none).loomStream sw.round (64 * rows)

/-- STREAM_W. -/
def execStreamW (panel : Nat) (errs : List LineErr) (s0 : State) : Res :=
  .next (let s := s0.arise errs
    issueTile 2 panel s (fun p own ws =>
    let w := ws.headD 0
    let fs := fmtaStatus (field w 0 8) true
    if !streamFields w then s.tileStop panel stTileField
    else if fs ≠ stOk then s.tileStop panel fs
    else if own then s.streamLoom panel w ws
    else if field w 53 2 ≠ 0 then s.tileStop panel stTilePrivateSource
    else
      let st := addrWordStatus (ws.drop 1)
      if st ≠ stOk then s.tileStop panel st else s.streamMemory p panel w ws))

/-! ## PASS (R60, R67 to R69) -/

/-- A pass check that failed on a logical array, or a Hem buffer. DESIGN CHOICE: R69 stops the program that runs; under an
open tile of the module's own expansion, of which R140 says nothing, the array is remapped and the pass runs again with the
tile's entries intact; the words that the Loom regenerates for it are not counted in LOOM_WORDS again (R144;
notes/assumptions/69.md). -/
def State.passFault (s : State) (n p : Nat) (e : PassErr) : State :=
  let word := (s.panel n).pc
  match e.cls with
  | .corrected => s
  | .transient =>
    let s1 := s.countError (some p) cntTransient
    s1.setPanel n { s1.panel n with note := (s1.panel n).note ++ [stTransientArray] }
  | .lasting =>
    let third := (s.panel n).health == 2
    let lost := third || (e.hem && !(s.panel n).tiles.isEmpty)
    let s1 := (s.countError (some p) cntLasting).arrayLost n p e.array
    if (s1.panel n).run.isNone then s1
    else if lost then s1.stopPanel n stPnlArrayLost word
    else s1.setPanel n { s1.panel n with note := (s1.panel n).note ++ [stLastingArray] }

/-- An error of the Matrix Loom under the pass of an expansion on Panel `n`; `go` is the state in which the pass runs. A
LASTING one stalls the expansion (R140). -/
def State.loomFault (s : State) (n : Nat) (cls : ErrClass) (go : State) : State :=
  match cls with
  | .corrected => go
  | .transient => go.countError none cntTransient
  | .lasting =>
    let s1 := { s with loom := { s.loom with failed := true } }
    match (s.panel n).sweeps with
    | sw :: _ => (s1.countError none cntLasting).loomStall sw.round
    | [] => s1

/-- PASS: the pending stream, the most recent one that no PASS has consumed, against an activation set (R60). -/
def execPass (panel : Nat) (err : Option PassErr) (s : State) : Res :=
  .next (issueTile 3 panel s (fun p _ ws =>
    let w := ws.headD 0
    let x := s.panel panel
    let aset := field w 54 1
    let set := x.setOf aset
    match x.streams with
    | [] => s.tileStop panel stTileSequence
    | str :: others =>
      if set.mat.klen ≠ str.mat.klen then s.tileStop panel stTileField
      else if !pairOk (fmtOf str.mat.fmta) (fmtOf set.mat.fmta) then s.tileStop panel stFmtPair
      else if !set.ready ∨ x.passes.any (fun (y : PassRec) => !y.done) then s
      else
        let y := { x with streams := others, passes := [⟨aset, field w 55 5, set, str, false, x.pc⟩] }
        let s1 := (s.setPanel panel y).advance panel 1 (some (field w 55 5))
        match err with
        | none => s1
        | some e =>
          if !e.loom then (s1.passFault panel p e).settle panel
          else if !str.loom then s1
          else s.loomFault panel e.cls s1))

/-- The last lane value of the pass in flight has left its array: the set is free. -/
def execPassDone (panel : Nat) (s : State) : Res :=
  .next (let x := s.panel panel
    if x.passes.any (fun (y : PassRec) => !y.done) ∧ s.isRun then
      (s.setPanel panel { x with passes := x.passes.map (fun (y : PassRec) => { y with done := true }) }).settle panel
    else s)

/-! ## PROMOTE (R66, R77, R82, R83) -/

/-- Bytes of an entry (R66). -/
def entryBytes (f ent : Nat) : Nat := if f = fmtRing32 ∨ ent = 1 then 4 else 8

/-- Slots of a tile. -/
def tileSlots (f ent msel : Nat) : Nat := rowsM msel * arrayCols f * entryBytes f ent / 4096

/-- The row of an operand with its scales. -/
def operandRows (m : Operand) : List Row :=
  let bs := bsOf m.fmta
  if bs then List.zipWith (fun c sc => ⟨c, sc, true⟩) m.rows m.scales else m.rows.map (fun c => ⟨c, [], false⟩)

/-- The weight rows that array `j` sees of a Loom stream: columns 64κ to 64κ + 63 of its block's rows. -/
def loomRows (pol : Policy) (mseed : Bytes) (kchunk block msel : Nat) : List Row :=
  (List.range (rowsM msel)).map (fun m =>
    ⟨(List.range 64).map (fun k =>
      matrixElem mseed pol.ring64 pol.vlen pol.lambda (rowsM msel * block + m) (64 * kchunk + k)), [], false⟩)

/-- The lanes of a pass, by sample and row. -/
def State.lanesOf (s : State) (n : Nat) (y : PassRec) : List (List LaneOut) :=
  let fa := fmtOf y.act.mat.fmta
  let fw := fmtOf y.stream.mat.fmta
  let acts := operandRows y.act.mat
  if y.stream.loom then
    match (s.panel n).sweeps with
    | [] => []
    | sw :: _ =>
      let r := s.round sw.round
      List.zipWith (fun a (b : Nat × Nat) =>
        (loomRows r.pol r.mseed y.stream.kchunk b.2 y.stream.msel).map (laneOut fa fw a)) acts y.stream.blocks
  else
    let ws := operandRows y.stream.mat
    acts.map (fun a => ws.map (laneOut fa fw a))

/-- Entries by sample and row: old ones, or zeros for a tile that starts. Samples that the pass does not load are zeros in
it and keep their entries. -/
def promoteRows (f ent : Nat) (first : Bool) : List (List Nat) → List (List LaneOut) → List (List (Nat × Bool))
  | es, [] => if first then [] else es.map (fun r => r.map (fun x => (x, false)))
  | [], l :: ls => l.map (fun o => entryStep f ent first 0 o.val) :: promoteRows f ent first [] ls
  | e :: es, l :: ls => List.zipWith (fun x o => entryStep f ent first x o.val) e l :: promoteRows f ent first es ls

/-- The tile after the PROMOTE of pass `y`. -/
def State.promoteTile (s : State) (n slot ent : Nat) (first : Bool) (y : PassRec) (old : Option Tile) : Tile :=
  let fa := fmtOf y.act.mat.fmta
  let lanes := s.lanesOf n y
  let new := promoteRows fa ent first (match old with
    | some t => t.entries
    | none => []) lanes
  let sat := lanes.any (fun r => r.any (·.sat)) || new.any (fun r => r.any (·.2))
  let sticky := lanes.any (fun r => r.any (·.sticky))
  let base := match old with
    | some t => (t.sat, t.inexact, t.k)
    | none => (false, false, 0)
  { slot := slot, nslots := tileSlots fa ent y.stream.msel
    fmt := ⟨fa, fmtOf y.stream.mat.fmta, ent, y.stream.msel, is4bit fa⟩
    entries := new.map (fun r => r.map (·.1)), results := [], scales := [], resFmta := 0, resDone := false, plain := false
    sat := base.1 || sat, inexact := base.2.1 || sticky, k := base.2.2 + y.act.mat.klen, ending := false }

/-- An expansion's last chunk is promoted (R138, R143): the negated column 0 entries of rows below VECTOR_LEN set out as
ring adds, and the sweep ends. The Panel's sets are zeroed with its tiles, so nothing that runs on it next finds S there
(R13); with the expansion's last PROMOTE S leaves the seed path too (R110, R143). -/
def State.endSweep (s : State) (n : Nat) (t : Tile) : State :=
  let x := s.panel n
  match x.sweeps with
  | [] => s
  | sw :: rest =>
    let r := s.round sw.round
    let b := 8 * r.pol.elem
    let adds := (List.zipWith (fun (e : List Nat) (k : Nat × Nat) =>
      e.mapIdx (fun m v => (512 * k.2 + m, (⟨((2 ^ b - v) % 2 ^ b : Nat), 0, 0⟩ : Addend)))) t.entries sw.blocks).flatten
    let live := adds.filter (fun e => decide (e.1 < r.pol.vlen))
    let y := { x with
      pc := 0, tiles := [], passes := [], pass := none, inflight := [], streams := [], set0 := actInit, set1 := actInit
      sweeps := rest }
    ((s.setPanel n y).newXfer (.expand sw.round) (.acc sw.round) live).expandEnd sw.round

/-- The checks of a PROMOTE of pass `y` (R60, R66, R82, R83): 0 where none fails. A tile stays in progress until its ending
command retires, so INIT 0 of another format meets it until then; INIT 1 conflicts only before that command is issued. -/
def promoteStatus (x : Panel) (w : Nat) (y : PassRec) : Nat :=
  let fa := fmtOf y.act.mat.fmta
  let ent := field w 52 2
  let msel := field w 50 2
  let slot := field w 55 5
  let k := tileSlots fa ent msel
  let fmt : TileFmt := ⟨fa, fmtOf y.stream.mat.fmta, ent, msel, is4bit fa⟩
  let hit := x.tiles.filter (fun (t : Tile) => slotsHit t slot k)
  let held := if bit w 54 then hit.filter (fun (t : Tile) => !t.ending) else hit
  let other := held.any (fun (t : Tile) => t.slot != slot || t.fmt != fmt)
  if 2 ≤ ent ∨ (ent = 1 ∧ !isFloat fa) ∨ msel ≠ y.stream.msel then stTileField
  else if !bit w 54 ∧ hit.isEmpty then stTileSequence
  else if slot % k ≠ 0 ∨ 32 < slot + k then stTileSlot
  else if other then stTileFormatConflict
  else stOk

/-- An in-flight command uses slots that overlap. -/
def tileBusy (x : Panel) (slot n : Nat) : Bool :=
  x.tiles.any (fun (t : Tile) => slotsHit t slot n && (t.ending || x.inflight.any (fun (i : InFlight) => i.opc == 5 && i.key == t.slot)))

/-- PROMOTE. A tile that it restarts leaves its SAT and INEXACT to the run (R78). -/
def execPromote (panel : Nat) (s : State) : Res :=
  .next (issueTile 4 panel s (fun _ own ws =>
    let w := ws.headD 0
    let x := s.panel panel
    let slot := field w 55 5
    let ent := field w 52 2
    let first := bit w 54
    match x.passes.getLast? with
    | none => s.tileStop panel stTileSequence
    | some y =>
      let st := promoteStatus x w y
      if x.pass ≠ some slot ∨ y.tile ≠ slot then s.tileStop panel stTileSequence
      else if st ≠ stOk then s.tileStop panel st
      else
        let k := tileSlots (fmtOf y.act.mat.fmta) ent y.stream.msel
        if !y.done ∨ tileBusy x slot k then s
        else
          let old := if first then none else x.tiles.find? (fun (t : Tile) => t.slot == slot)
          let t := s.promoteTile panel slot ent first y old
          let gone := if first then x.tiles.filter (fun (u : Tile) => slotsHit u slot k) else []
          let s1 := s.setPanel panel { x with
            passes := [], tiles := x.tiles.filter (fun (u : Tile) => !slotsHit u slot k) ++ [t]
            sat := x.sat || gone.any (·.sat), inexact := x.inexact || gone.any (·.inexact) }
          if own ∧ x.pc + 1 = 6 * ((s.round ((x.sweeps.map (·.round)).headD 0)).pol.lambda / 64) then s1.endSweep panel t
          else s1.advance panel 1 none))

/-! ## EPILOGUE (R61) -/

/-- The tile that an EPILOGUE, STORE or REDUCE_SEAM names, or the status that stops the Panel (R65, R83). With no tile in
progress at its slot the Panel stops with ST_TILE_SEQUENCE: R65 gives no row for it (notes/assumptions/64.md). -/
def namedTile (x : Panel) (slot : Nat) : Option Tile × Nat :=
  match x.tiles.find? (fun (t : Tile) => slotsHit t slot 1) with
  | none => (none, stTileSequence)
  | some t => if t.slot = slot then (some t, stOk) else (none, stTileFormatConflict)

/-- Field ranges of EPILOGUE, and what a ring tile forbids; an F61 tile counts as a ring tile
(notes/assumptions/65.md). -/
def epilogueFields (w scale : Nat) (t : Tile) : Bool :=
  decide (field w 51 4 ≤ 8)
    && (!(isRing t.fmt.fmtA || t.fmt.fmtA == fmtF61) || (field w 51 4 == 0 && scale == 0x3F800000 && !bit w 50))

/-- The value that EPILOGUE converts of an entry in row `m`: the ring or field value itself for a ring or F61 tile
(notes/assumptions/65.md). -/
def epilogueVal (t : Tile) (w scale param : Nat) (bias : List Nat) (m e : Nat) : Val :=
  let f := t.fmt.fmtA
  if isRing f ∨ f = fmtF61 then entryVal f t.fmt.ent e
  else .flt (f32Val (epilogueF32 (field w 51 4) scale param (if bit w 50 then some (bias.getD m 0) else none)
    (entryF32 f t.fmt.ent e)))

/-- The results of a tile, and the state with bits drawn and conversions counted. -/
def State.epilogueTile (s : State) (p : Nat) (t : Tile) (w scale param : Nat) (bias : List Nat) : Tile × State :=
  let fmta := field w 0 8
  let f := fmtOf fmta
  let vals := t.entries.map (fun r => r.mapIdx (epilogueVal t w scale param bias))
  let blk := vals.map (fun r => blockValues f (r.map valFlt))
  let flat := if bsOf fmta then (blk.map (·.1)).flatten else vals.flatten
  let c := s.convertList p f (rndOf fmta) flat
  let plain := isFloat t.fmt.fmtA && field w 51 4 == 0 && scale == 0x3F800000
    && !bit w 50 && f == fmtFp32 && rndOf fmta == 0
  ({ t with
      results := regroup (rowsM t.fmt.msel) c.1, scales := if bsOf fmta then blk.map (·.2) else [], resFmta := fmta
      resDone := true, plain := plain }, c.2)

/-- EPILOGUE. -/
def execEpilogue (panel : Nat) (errs : List LineErr) (s0 : State) : Res :=
  .next (let s := s0.arise errs
    issueTile 5 panel s (fun p _ ws =>
    let w := ws.headD 0
    let x := s.panel panel
    let slot := field w 55 5
    let nt := namedTile x slot
    let fmta := field w 0 8
    let scale := field (ws.getD 1 0) 32 32
    let param := field (ws.getD 1 0) 0 32
    let fs := fmtaStatus fmta false
    match nt.1 with
    | none => if 9 ≤ field w 51 4 then s.tileStop panel stTileField else if fs ≠ stOk then s.tileStop panel fs else s.tileStop panel nt.2
    | some t =>
      if !epilogueFields w scale t then s.tileStop panel stTileField
      else if fs ≠ stOk then s.tileStop panel fs
      else if (if isRing t.fmt.fmtA ∨ t.fmt.fmtA = fmtF61 then !convOk t.fmt.fmtA (fmtOf fmta) else !convOk fmtFp32 (fmtOf fmta)) then
        s.tileStop panel stFmtConversion
      else
        let hasBias := bit w 50
        let aw := addrWordStatus (ws.drop 2)
        let a := x.addr (ws.getD 2 0)
        let rows := if hasBias then [(a.addr, 4 * rowsM t.fmt.msel)] else []
        let chk := s.accStatus p a rows false
        let pages := if hasBias then pagesOf a rows else []
        if hasBias ∧ aw ≠ stOk then s.tileStop panel aw
        else if hasBias ∧ chk ≠ stOk then s.tileStop panel chk
        else if t.ending ∨ x.flies 5 then s
        else match s.missing p panel pages with
          | some pg => s.setPanel panel { x with stall := some pg }
          | none =>
            let old := State.staleBlocks (if hasBias then x.unsynced else []) (s.usePages p panel pages false)
            let m := State.tileRows p panel a old.1 rows old.2
            let s1 := m.1.tileStatuses panel x.pc m.2.2
            if stops m.2.2 then s1.settle panel
            else
              let bias := (List.range (rowsM t.fmt.msel)).map (fun i => le (m.2.1.headD []) (4 * i) 4)
              let r := s1.epilogueTile p t w scale param (if hasBias then bias else [])
              let src := if isRing t.fmt.fmtA ∨ t.fmt.fmtA = fmtF61 then t.fmt.fmtA else fmtFp32
              let s2 := match s.runOp panel with
                | some o => r.2.setDets o.det p o.tag [(detStochastic, rndOf fmta == 2 && convRounds src (fmtOf fmta))]
                | none => r.2
              let y := s2.panel panel
              (s2.setPanel panel { y with
                tiles := y.tiles.map (fun (u : Tile) => if u.slot = slot then r.1 else u)
                inflight := y.inflight ++ [⟨5, x.pc, slot, pages⟩] }).advance panel ws.length none))

/-! ## STORE and REDUCE_SEAM (R62, R88) -/

/-- Marks the tile of `slot` as ending and puts its command in flight. -/
def State.ending (s : State) (n opc slot : Nat) (pages : List Nat) : State :=
  let y := s.panel n
  s.setPanel n { y with
    tiles := y.tiles.map (fun (u : Tile) => if u.slot = slot then { u with ending := true } else u)
    inflight := y.inflight ++ [⟨opc, y.pc, slot, pages⟩] }

/-- A tile waits for an EPILOGUE in flight, or the store unit is busy. -/
def endBusy (x : Panel) (t : Tile) : Bool :=
  t.ending || x.flies 6 || x.flies 7 || x.inflight.any (fun (i : InFlight) => i.opc == 5 && i.key == t.slot)

/-- STORE. The rows written are those of the arrays that the tile's passes loaded: samples of arrays above NARR_M1 are not
written (notes/assumptions/66.md). -/
def execStore (panel : Nat) (s : State) : Res :=
  .next (issueTile 6 panel s (fun p _ ws =>
    let w := ws.headD 0
    let x := s.panel panel
    let nt := namedTile x (field w 55 5)
    let aw := addrWordStatus (ws.drop 1)
    if aw ≠ stOk then s.tileStop panel aw
    else match nt.1 with
      | none => s.tileStop panel nt.2
      | some t =>
        let a := x.addr (ws.getD 1 0)
        let f := fmtOf t.resFmta
        let rows := rowsOf a t.entries.length (packedBytes f (rowsM t.fmt.msel))
        let chk := s.accStatus p a rows true
        let pages := pagesOf a rows
        if t.ending then s
        else if !t.resDone then s.tileStop panel stTileSequence
        else if chk ≠ stOk then s.tileStop panel chk
        else if endBusy x t then s
        else match s.missing p panel pages with
          | some pg => s.setPanel panel { x with stall := some pg }
          | none =>
            let data := List.zipWith (fun (r : Nat × Nat) cs => (r.1, packElems f cs)) rows t.results
            let m := State.tileWrite p panel a data (s.usePages p panel pages true, [])
            let s1 := (m.1.ending panel 6 t.slot pages).tileStatuses panel x.pc m.2
            if stops m.2 then s1.settle panel else s1.advance panel ws.length none))

/-- The kind of region that a tile goes to (R88). -/
def tileKind (t : Tile) : Nat :=
  let f := t.fmt.fmtA
  if isInt f then kindInt128 else if isFloat f then kindFx320 else if f = fmtRing32 then kindRing32
  else if f = fmtRing64 then kindRing64 else kindF61

/-- The addend of one entry, with the tile's SAT and INEXACT flags. -/
def tileAddend (t : Tile) (e : Nat) : Addend :=
  let f := t.fmt.fmtA
  let flags := (if t.sat then seamSat else 0) + (if t.inexact then seamInexact else 0)
  if isInt f then ⟨signed 64 e, flags, 1⟩
  else if isFloat f then
    let a := if t.fmt.ent = 1 then addendOf kindFx320 0 fmtFp32 (leBytes 4 e) else addendOf kindFx320 1 0 (leBytes 8 e)
    { a with flags := a.flags ||| flags }
  else ⟨(e : Nat), 0, 0⟩

/-- REDUCE_SEAM. -/
def execReduceSeam (panel : Nat) (s : State) : Res :=
  .next (issueTile 7 panel s (fun p _ ws =>
    let w := ws.headD 0
    let x := s.panel panel
    let nt := namedTile x (field w 55 5)
    let region := field (ws.getD 1 0) 48 16
    let off := field (ws.getD 1 0) 0 48
    let stride := field (ws.getD 2 0) 0 40
    if field (ws.getD 2 0) 40 24 ≠ 0 then s.tileStop panel stTileOpcode
    else match nt.1 with
      | none => s.tileStop panel nt.2
      | some t =>
        if t.ending then s
        else if t.resDone then s.tileStop panel stTileSequence
        else match s.region p region with
          | none => s.tileStop panel stSeamRegionId
          | some r =>
            let adds := (t.entries.mapIdx (fun n es => es.mapIdx (fun m e => (off + n * stride + m, tileAddend t e)))).flatten
            if r.kind ≠ tileKind t then s.tileStop panel stSeamFormat
            else if adds.any (fun e => decide (r.elems ≤ e.1)) then s.tileStop panel stSeamRange
            else if s.lockStatus p r.tier r.base r.bytes ≠ stOk then s.tileStop panel (s.lockStatus p r.tier r.base r.bytes)
            else if endBusy x t then s
            else
              ((s.ending panel 7 t.slot []).newXfer (.panel panel x.pc)
                (.region p region r.defNo r.tier r.base r.kind) adds).advance panel 3 none))

/-! ## SYNC (R63) -/

/-- The classes of WAIT have retired. -/
def waitOver (x : Panel) (wait : Nat) : Bool :=
  (!bit wait 3 || !x.flies 1) && (!bit wait 2 || x.passes.all (·.done)) && (!bit wait 1 || (!x.flies 5 && !x.flies 6))
    && (!bit wait 0 || !x.flies 7)

/-- A SYNC ends: its signal, the SYNC that R64 asks for, the next command. -/
def State.endSync (s : State) (n p w : Nat) : State :=
  let x := s.panel n
  let y := if bit w 52 then { x with unsynced := [] } else x
  let s1 := s.setPanel n { y with atBarrier := false, barriers := y.barriers + b2n (bit w 50) }
  let s2 := if bit w 49 then s1.raise (srcPanel n) evPnlSync p (leBytes 2 (field w 32 16)) else s1
  s2.advance n 1 none

/-- A Panel of the run has stopped. -/
def State.runStopped (s : State) (n : Nat) : Bool :=
  match s.runOp n with
  | some o => o.panels.any (fun k => (s.panel k).stopped.isSome)
  | none => false

/-- SYNC: with BARRIER the Panel waits for the others, or ends where one of them has stopped (R65). -/
def execSync (panel : Nat) (s : State) : Res :=
  .next (issueTile 8 panel s (fun p _ ws =>
    let w := ws.headD 0
    let x := s.panel panel
    if field w 55 5 ≠ 0 then s.tileStop panel stTileField
    else if !waitOver x (field w 51 4) then s
    else if !bit w 50 then s.endSync panel p w
    else if s.runStopped panel then (s.setPanel panel { x with ended := true }).settle panel
    else s.setPanel panel { x with atBarrier := true }))

/-- Every Panel of the TILE_RUN has reached its barrier of the same ordinal: all go on. Where one has stopped, those at
the barrier end. -/
def execSyncBarrierRelease (op : Nat) (s : State) : Res :=
  .next (match s.op op with
    | none => s
    | some o =>
      let ns := o.panels.filter (fun n => (s.panel n).run == some op)
      let p := o.fn - 1
      if o.opcode ≠ 0x10 ∨ o.phase ≠ .running then s
      else if ns.any (fun n => (s.panel n).stopped.isSome) then
        (ns.foldl (fun s n =>
          let x := s.panel n
          if x.atBarrier then s.setPanel n { x with atBarrier := false, ended := true } else s) s).settleRun op
      else if ns.all (fun n => (s.panel n).atBarrier && (s.panel n).barriers == (s.panel (ns.headD 0)).barriers) then
        ns.foldl (fun s n =>
          let x := s.panel n
          s.endSync n p ((x.prog.getD x.pc 0).toNat)) s
      else s)

/-! ## Retirement, pages -/

/-- A LOAD_ACT, EPILOGUE or STORE in flight retires. -/
def execTileCommandRetire (panel word : Nat) (s : State) : Res :=
  .next (let x := s.panel panel
    match x.inflight.find? (fun (i : InFlight) => i.word == word && i.opc != 7), s.isRun with
    | some i, true =>
      let s1 := s.setPanel panel { x with inflight := x.inflight.filter (fun (j : InFlight) => !(j.word == word && j.opc == i.opc)) }
      let y := s1.panel panel
      let s2 := match i.opc with
        | 1 => s1.setPanel panel (y.putSet i.key { y.setOf i.key with ready := true })
        | 6 =>
          match s.panelPart panel, y.tiles.find? (fun (t : Tile) => t.slot == i.key && t.ending) with
          | some p, some t => s1.endTile panel p t t.plain
          | _, _ => s1
        | _ => s1
      s2.settle panel
    | _, _ => s)

/-- The least recently used page that no in-flight command uses, a PASS whose stream still runs among them (R52). -/
def victim (x : Panel) : Option StorePage :=
  x.pages.find? (fun (e : StorePage) => !x.inflight.any (fun (i : InFlight) => i.pages.contains e.page)
    && !x.passes.any (fun (y : PassRec) => !y.done && y.stream.pages.contains e.page))

/-- A page leaves the store: written back to its place when it is dirty. -/
def State.evict (s : State) (p n : Nat) (e : StorePage) : State :=
  let x := s.panel n
  let a := e.page * pageBytes
  let y := { x with pages := x.pages.filter (fun (u : StorePage) => u.page != e.page), store := clearMem a (a + pageBytes) x.store }
  if e.dirty then
    ((s.memWrite p 0 (s.spillAddr p n a) (rdBytes x.store a pageBytes)).1.setPanel n y).countPart p cntPnlSpillOut
  else s.setPanel n y

/-- The page for which a Panel stalls arrives from the spill area. -/
def execSpillPageFetchDone (panel : Nat) (errs : List LineErr) (s0 : State) : Res :=
  .next (let s := s0.arise errs
    let x := s.panel panel
    match x.stall, s.panelPart panel with
    | some pg, some p =>
      let full := decide (352 ≤ x.pages.length)
      match (if full then victim x else none), full with
      | none, true => s
      | v, _ =>
        let s1 := match v with
          | some e => s.evict p panel e
          | none => s
        let a := pg * pageBytes
        let m := s1.memRead p 0 (s1.spillAddr p panel a) pageBytes
        let y := m.1.panel panel
        let s2 := (m.1.setPanel panel { y with
          stall := none, touched := pg :: y.touched, pages := y.pages ++ [⟨pg, false⟩], store := wrBytes a m.2.data y.store }).countPart p
            cntPnlSpillIn
        (s2.tileStatus panel m.2.status y.pc).settle panel
    | _, _ => s)

end Sys2Proof.Machine
end

