-- ==== Sys2Proof/Machine/Dispatch.lean ====
section
/-! DEFINITION. Which meaning each command has: one arm per row of spec/opcode_table.json. -/

namespace Sys2Proof.Machine

def exec (i : Instr) (s : State) : Host.Outcome State Fault Refusal :=
  match i with
  | .registerWrite fn off v => Sys2Proof.Machine.execRegisterWrite fn off v s
  | .badAccessWidth fn off width write => Sys2Proof.Machine.execBadAccessWidth fn off width write s
  | .loReadLatch fn off => Sys2Proof.Machine.execLoReadLatch fn off s
  | .debugViewWrite off v => Sys2Proof.Machine.execDebugViewWrite off v s
  | .counterOvfClear fn idx => Sys2Proof.Machine.execCounterOvfClear fn idx s
  | .cntCtlClearAll fn => Sys2Proof.Machine.execCntCtlClearAll fn s
  | .ringCreate fn => Sys2Proof.Machine.execRingCreate fn s
  | .ringDelete fn => Sys2Proof.Machine.execRingDelete fn s
  | .ringDeleteDone fn => Sys2Proof.Machine.execRingDeleteDone fn s
  | .hifSqTailWrite fn v => Sys2Proof.Machine.execHifSqTailWrite fn v s
  | .hifCqHeadWrite fn v => Sys2Proof.Machine.execHifCqHeadWrite fn v s
  | .hifEqHeadWrite fn v => Sys2Proof.Machine.execHifEqHeadWrite fn v s
  | .descriptorFetchDone fn descs => Sys2Proof.Machine.execDescriptorFetchDone fn descs s
  | .descriptorDispatch fn => Sys2Proof.Machine.execDescriptorDispatch fn s
  | .coalesceTimerExpiry fn => Sys2Proof.Machine.execCoalesceTimerExpiry fn s
  | .eventVectorHoldoffEnd fn => Sys2Proof.Machine.execEventVectorHoldoffEnd fn s
  | .hifHeartbeat fn v => Sys2Proof.Machine.execHifHeartbeat fn v s
  | .hifHbCfgWrite fn v => Sys2Proof.Machine.execHifHbCfgWrite fn v s
  | .heartbeatExpiry fn => Sys2Proof.Machine.execHeartbeatExpiry fn s
  | .linkDown => Sys2Proof.Machine.execLinkDown s
  | .busMasterEnableClear fn => Sys2Proof.Machine.execBusMasterEnableClear fn s
  | .d3hotEntry fn => Sys2Proof.Machine.execD3hotEntry fn s
  | .vfFlr p => Sys2Proof.Machine.execVfFlr p s
  | .pfFlr => Sys2Proof.Machine.execPfFlr s
  | .hotReset => Sys2Proof.Machine.execHotReset s
  | .perstNAssert => Sys2Proof.Machine.execPerstNAssert s
  | .perstNRelease => Sys2Proof.Machine.execPerstNRelease s
  | .tdispError p => Sys2Proof.Machine.execTdispError p s
  | .nonIdeRequest p => Sys2Proof.Machine.execNonIdeRequest p s
  | .hifHeldStatClear fn => Sys2Proof.Machine.execHifHeldStatClear fn s
  | .nop op => Sys2Proof.Machine.execNop op s
  | .dmaIn op data => Sys2Proof.Machine.execDmaIn op data s
  | .dmaOut op errs => Sys2Proof.Machine.execDmaOut op errs s
  | .dmaMove op errs => Sys2Proof.Machine.execDmaMove op errs s
  | .hostSeamAdd op data => Sys2Proof.Machine.execHostSeamAdd op data s
  | .weightLoad op data errs => Sys2Proof.Machine.execWeightLoad op data errs s
  | .weightRelease op => Sys2Proof.Machine.execWeightRelease op s
  | .tileRun op errs => Sys2Proof.Machine.execTileRun op errs s
  | .loadAct panel errs => Sys2Proof.Machine.execLoadAct panel errs s
  | .streamW panel errs => Sys2Proof.Machine.execStreamW panel errs s
  | .pass panel err => Sys2Proof.Machine.execPass panel err s
  | .passDone panel => Sys2Proof.Machine.execPassDone panel s
  | .promote panel => Sys2Proof.Machine.execPromote panel s
  | .epilogue panel errs => Sys2Proof.Machine.execEpilogue panel errs s
  | .store panel => Sys2Proof.Machine.execStore panel s
  | .reduceSeam panel => Sys2Proof.Machine.execReduceSeam panel s
  | .sync panel => Sys2Proof.Machine.execSync panel s
  | .syncBarrierRelease op => Sys2Proof.Machine.execSyncBarrierRelease op s
  | .spillPageFetchDone panel errs => Sys2Proof.Machine.execSpillPageFetchDone panel errs s
  | .seamRegion op => Sys2Proof.Machine.execSeamRegion op s
  | .seamRegionClearDone p region => Sys2Proof.Machine.execSeamRegionClearDone p region s
  | .seamRegionRelease op => Sys2Proof.Machine.execSeamRegionRelease op s
  | .seamFinalise op => Sys2Proof.Machine.execSeamFinalise op s
  | .seamCloseDrainDone p region errs => Sys2Proof.Machine.execSeamCloseDrainDone p region errs s
  | .seamAddendApply xfer err errs => Sys2Proof.Machine.execSeamAddendApply xfer err errs s
  | .roundOpen op policy => Sys2Proof.Machine.execRoundOpen op policy s
  | .roundZeroingDone p slot => Sys2Proof.Machine.execRoundZeroingDone p slot s
  | .roundAbort op => Sys2Proof.Machine.execRoundAbort op s
  | .roundStatus op => Sys2Proof.Machine.execRoundStatus op s
  | .roundFree op => Sys2Proof.Machine.execRoundFree op s
  | .roundFreeScrubDone p slot => Sys2Proof.Machine.execRoundFreeScrubDone p slot s
  | .roundRoster op roster => Sys2Proof.Machine.execRoundRoster op roster s
  | .shareSum op header => Sys2Proof.Machine.execShareSum op header s
  | .admitClose p slot => Sys2Proof.Machine.execAdmitClose p slot s
  | .complete p slot => Sys2Proof.Machine.execComplete p slot s
  | .seal p slot => Sys2Proof.Machine.execSeal p slot s
  | .sealDrainEnd p slot => Sys2Proof.Machine.execSealDrainEnd p slot s
  | .release p slot => Sys2Proof.Machine.execRelease p slot s
  | .shareCollectionTimeout p slot => Sys2Proof.Machine.execShareCollectionTimeout p slot s
  | .shareCombinerServe envelopes => Sys2Proof.Machine.execShareCombinerServe envelopes s
  | .roundShardsConfirmed p slot => Sys2Proof.Machine.execRoundShardsConfirmed p slot s
  | .ingestRecordCheck p err => Sys2Proof.Machine.execIngestRecordCheck p err s
  | .ingCtlFlush p => Sys2Proof.Machine.execIngCtlFlush p s
  | .ingCtlUnlatch p => Sys2Proof.Machine.execIngCtlUnlatch p s
  | .gruKeyset op => Sys2Proof.Machine.execGruKeyset op s
  | .gruKeysetRelease op => Sys2Proof.Machine.execGruKeysetRelease op s
  | .gruProgram op => Sys2Proof.Machine.execGruProgram op s
  | .gruProgramRelease op => Sys2Proof.Machine.execGruProgramRelease op s
  | .gruRun op => Sys2Proof.Machine.execGruRun op s
  | .gruBatchDone gru err => Sys2Proof.Machine.execGruBatchDone gru err s
  | .memPatrolTick tier line err => Sys2Proof.Machine.execMemPatrolTick tier line err s
  | .memErrInfoClear fn => Sys2Proof.Machine.execMemErrInfoClear fn s
  | .flashRead op errs => Sys2Proof.Machine.execFlashRead op errs s
  | .flashWrite op data errs => Sys2Proof.Machine.execFlashWrite op data errs s
  | .flashTrim op => Sys2Proof.Machine.execFlashTrim op s
  | .checkpoint op list errs => Sys2Proof.Machine.execCheckpoint op list errs s
  | .ckptRestore op errs => Sys2Proof.Machine.execCkptRestore op errs s
  | .gateExtentAdmit => Sys2Proof.Machine.execGateExtentAdmit s
  | .flashProgramDone extent res => Sys2Proof.Machine.execFlashProgramDone extent res s
  | .flashPatrolTick die block page errs => Sys2Proof.Machine.execFlashPatrolTick die block page errs s
  | .wearMove die block => Sys2Proof.Machine.execWearMove die block s
  | .holdupEnergyMeasure millivolts => Sys2Proof.Machine.execHoldupEnergyMeasure millivolts s
  | .bankCapacitanceTest => Sys2Proof.Machine.execBankCapacitanceTest s
  | .bankTestDone millifarads => Sys2Proof.Machine.execBankTestDone millifarads s
  | .fabSend op => Sys2Proof.Machine.execFabSend op s
  | .fabWrite op => Sys2Proof.Machine.execFabWrite op s
  | .fabRead op => Sys2Proof.Machine.execFabRead op s
  | .fabFlush op => Sys2Proof.Machine.execFabFlush op s
  | .fabCancel op => Sys2Proof.Machine.execFabCancel op s
  | .fabTriggerArm op => Sys2Proof.Machine.execFabTriggerArm op s
  | .fabCounterSet op => Sys2Proof.Machine.execFabCounterSet op s
  | .fabCounterAdd op => Sys2Proof.Machine.execFabCounterAdd op s
  | .fabWindowCreate op => Sys2Proof.Machine.execFabWindowCreate op s
  | .fabWindowRevoke op => Sys2Proof.Machine.execFabWindowRevoke op s
  | .fabRqCreate op => Sys2Proof.Machine.execFabRqCreate op s
  | .fabRqReturn op => Sys2Proof.Machine.execFabRqReturn op s
  | .fabRqDelete op => Sys2Proof.Machine.execFabRqDelete op s
  | .fabPeerSet op => Sys2Proof.Machine.execFabPeerSet op s
  | .fabPeerClear op => Sys2Proof.Machine.execFabPeerClear op s
  | .fabJobBind op => Sys2Proof.Machine.execFabJobBind op s
  | .fabJobUnbind op => Sys2Proof.Machine.execFabJobUnbind op s
  | .pxtTransmit msg port => Sys2Proof.Machine.execPxtTransmit msg port s
  | .pxtSendReceive pkt err => Sys2Proof.Machine.execPxtSendReceive pkt err s
  | .pxtWriteReceive pkt => Sys2Proof.Machine.execPxtWriteReceive pkt s
  | .pxtReadReqReceive pkt errs => Sys2Proof.Machine.execPxtReadReqReceive pkt errs s
  | .pxtReadRespReceive pkt => Sys2Proof.Machine.execPxtReadRespReceive pkt s
  | .pxtAckReceive pkt => Sys2Proof.Machine.execPxtAckReceive pkt s
  | .pxtNackReceive pkt => Sys2Proof.Machine.execPxtNackReceive pkt s
  | .pxtFlushReceive pkt => Sys2Proof.Machine.execPxtFlushReceive pkt s
  | .pxtFlushRespSend flush => Sys2Proof.Machine.execPxtFlushRespSend flush s
  | .pxtFlushRespReceive pkt => Sys2Proof.Machine.execPxtFlushRespReceive pkt s
  | .pxtErrorReceive pkt => Sys2Proof.Machine.execPxtErrorReceive pkt s
  | .placementFailure entry first len => Sys2Proof.Machine.execPlacementFailure entry first len s
  | .pxtAckTimer entry => Sys2Proof.Machine.execPxtAckTimer entry s
  | .pxtRetransmitTimeout msg pkt => Sys2Proof.Machine.execPxtRetransmitTimeout msg pkt s
  | .pxtMessageTimeout msg => Sys2Proof.Machine.execPxtMessageTimeout msg s
  | .pxtRnrResend msg => Sys2Proof.Machine.execPxtRnrResend msg s
  | .receiveEntryExpiry entry => Sys2Proof.Machine.execReceiveEntryExpiry entry s
  | .windowIdleTimeout entry => Sys2Proof.Machine.execWindowIdleTimeout entry s
  | .portsDownTimeout msg => Sys2Proof.Machine.execPortsDownTimeout msg s
  | .fabPortDown port => Sys2Proof.Machine.execFabPortDown port s
  | .fabPortUp port => Sys2Proof.Machine.execFabPortUp port s
  | .markSet op => Sys2Proof.Machine.execMarkSet op s
  | .markCancel op => Sys2Proof.Machine.execMarkCancel op s
  | .markList op => Sys2Proof.Machine.execMarkList op s
  | .timeSet op => Sys2Proof.Machine.execTimeSet op s
  | .markArmingStart entry => Sys2Proof.Machine.execMarkArmingStart entry s
  | .markParticipantArmed entry unit err => Sys2Proof.Machine.execMarkParticipantArmed entry unit err s
  | .markArmDeadline entry => Sys2Proof.Machine.execMarkArmDeadline entry s
  | .dispatchMark entry => Sys2Proof.Machine.execDispatchMark entry s
  | .eventMark entry => Sys2Proof.Machine.execEventMark entry s
  | .modeMark entry => Sys2Proof.Machine.execModeMark entry s
  | .partitionMark entry => Sys2Proof.Machine.execPartitionMark entry s
  | .firmwareMark entry => Sys2Proof.Machine.execFirmwareMark entry s
  | .fallbackMark entry => Sys2Proof.Machine.execFallbackMark entry s
  | .markRollbackWindowEnd entry fault again => Sys2Proof.Machine.execMarkRollbackWindowEnd entry fault again s
  | .partitionBlankDone p => Sys2Proof.Machine.execPartitionBlankDone p s
  | .partConfig op layout => Sys2Proof.Machine.execPartConfig op layout s
  | .ptpSyncReceive src origin twoStep => Sys2Proof.Machine.execPtpSyncReceive src origin twoStep s
  | .ptpDelayReqTimer => Sys2Proof.Machine.execPtpDelayReqTimer s
  | .ptpAnnounceTimeout => Sys2Proof.Machine.execPtpAnnounceTimeout s
  | .ppsInEdge => Sys2Proof.Machine.execPpsInEdge s
  | .ppsMissingTimeout => Sys2Proof.Machine.execPpsMissingTimeout s
  | .ppsOutSecond => Sys2Proof.Machine.execPpsOutSecond s
  | .mrdCfgWrite v => Sys2Proof.Machine.execMrdCfgWrite v s
  | .tenantSwitch op => Sys2Proof.Machine.execTenantSwitch op s
  | .tenantSwitchScrubDone bad => Sys2Proof.Machine.execTenantSwitchScrubDone bad s
  | .lifecycleRetire op => Sys2Proof.Machine.execLifecycleRetire op s
  | .mgmtCred op key => Sys2Proof.Machine.execMgmtCred op key s
  | .meshBreach => Sys2Proof.Machine.execMeshBreach s
  | .glitchDetect => Sys2Proof.Machine.execGlitchDetect s
  | .keySlotIntegrityFault slot => Sys2Proof.Machine.execKeySlotIntegrityFault slot s
  | .keyMaskRefresh => Sys2Proof.Machine.execKeyMaskRefresh s
  | .rngBlockTest source bits => Sys2Proof.Machine.execRngBlockTest source bits s
  | .rngSourceRestartDone source => Sys2Proof.Machine.execRngSourceRestartDone source s
  | .rngStartupTestDone fails => Sys2Proof.Machine.execRngStartupTestDone fails s
  | .rngRawRead => Sys2Proof.Machine.execRngRawRead s
  | .rngRawWrite v => Sys2Proof.Machine.execRngRawWrite v s
  | .rngCtlWrite v => Sys2Proof.Machine.execRngCtlWrite v s
  | .spdmKeyExchange carrier sid exch => Sys2Proof.Machine.execSpdmKeyExchange carrier sid exch s
  | .spdmFinish sid root => Sys2Proof.Machine.execSpdmFinish sid root s
  | .spdmGetCertificate carrier => Sys2Proof.Machine.execSpdmGetCertificate carrier s
  | .spdmGetMeasurements carrier => Sys2Proof.Machine.execSpdmGetMeasurements carrier s
  | .spdmChallenge carrier nonce => Sys2Proof.Machine.execSpdmChallenge carrier nonce s
  | .spdmKeyUpdate sid => Sys2Proof.Machine.execSpdmKeyUpdate sid s
  | .spdmHeartbeat sid => Sys2Proof.Machine.execSpdmHeartbeat sid s
  | .spdmEndSession sid => Sys2Proof.Machine.execSpdmEndSession sid s
  | .spdmHeartbeatExpiry sid => Sys2Proof.Machine.execSpdmHeartbeatExpiry sid s
  | .doeAbort fn => Sys2Proof.Machine.execDoeAbort fn s
  | .mgmtLinkReset => Sys2Proof.Machine.execMgmtLinkReset s
  | .ideKmKeyProg sid stream substream rx key => Sys2Proof.Machine.execIdeKmKeyProg sid stream substream rx key s
  | .keyDeliver sid req => Sys2Proof.Machine.execKeyDeliver sid req s
  | .keyUnwrap sid req => Sys2Proof.Machine.execKeyUnwrap sid req s
  | .keyWrap sid req => Sys2Proof.Machine.execKeyWrap sid req s
  | .keyZeroise sid req => Sys2Proof.Machine.execKeyZeroise sid req s
  | .cartoucheGet sid req => Sys2Proof.Machine.execCartoucheGet sid req s
  | .cartoucheLog sid req => Sys2Proof.Machine.execCartoucheLog sid req s
  | .fwStage op piece => Sys2Proof.Machine.execFwStage op piece s
  | .fwActivate op => Sys2Proof.Machine.execFwActivate op s
  | .fwConfirmWrite v => Sys2Proof.Machine.execFwConfirmWrite v s
  | .slotCopyDone => Sys2Proof.Machine.execSlotCopyDone s
  | .fwDumpRead op => Sys2Proof.Machine.execFwDumpRead op s
  | .fwDumpCapture op => Sys2Proof.Machine.execFwDumpCapture op s
  | .coreFault core cls => Sys2Proof.Machine.execCoreFault core cls s
  | .watchdogExpiry core cls => Sys2Proof.Machine.execWatchdogExpiry core cls s
  | .crashDumpCaptureDone => Sys2Proof.Machine.execCrashDumpCaptureDone s
  | .loadWaitTimeout => Sys2Proof.Machine.execLoadWaitTimeout s
  | .fwMboxGo => Sys2Proof.Machine.execFwMboxGo s
  | .mgmtImageTransferDone bundle => Sys2Proof.Machine.execMgmtImageTransferDone bundle s
  | .mgmtHealthRead off => Sys2Proof.Machine.execMgmtHealthRead off s
  | .mgmtEnvelopedRequest env => Sys2Proof.Machine.execMgmtEnvelopedRequest env s
  | .mgmtResetAction env => Sys2Proof.Machine.execMgmtResetAction env s
  | .auxGood => Sys2Proof.Machine.execAuxGood s
  | .auxSourceLoss from12V => Sys2Proof.Machine.execAuxSourceLoss from12V s
  | .strapLatch pins => Sys2Proof.Machine.execStrapLatch pins s
  | .mainRailsEnable => Sys2Proof.Machine.execMainRailsEnable s
  | .mainGood => Sys2Proof.Machine.execMainGood s
  | .runEntry bad dumpBad => Sys2Proof.Machine.execRunEntry bad dumpBad s
  | .pwrFailNAssert => Sys2Proof.Machine.execPwrFailNAssert s
  | .undervoltage54v => Sys2Proof.Machine.execUndervoltage54v s
  | .dumpEnd left count => Sys2Proof.Machine.execDumpEnd left count s
  | .v54Return => Sys2Proof.Machine.execV54Return s
  | .modResetNAssert lowNs => Sys2Proof.Machine.execModResetNAssert lowNs s
  | .modResetNRelease => Sys2Proof.Machine.execModResetNRelease s
  | .resetHeldTimeout => Sys2Proof.Machine.execResetHeldTimeout s
  | .resetStuckTimeout => Sys2Proof.Machine.execResetStuckTimeout s
  | .thermalAlert junction inlet => Sys2Proof.Machine.execThermalAlert junction inlet s
  | .throttleStepDown => Sys2Proof.Machine.execThrottleStepDown s
  | .throttleStepUp junction inlet => Sys2Proof.Machine.execThrottleStepUp junction inlet s
  | .thermalTrip junction inlet => Sys2Proof.Machine.execThermalTrip junction inlet s
  | .auxPowerLoss => Sys2Proof.Machine.execAuxPowerLoss s
  | .fusingToDeployed => Sys2Proof.Machine.execFusingToDeployed s
  | .ptpAnnounceReceive src data => Sys2Proof.Machine.execPtpAnnounceReceive src data s
  | .ptpDelayRespReceive src received => Sys2Proof.Machine.execPtpDelayRespReceive src received s
  | .ptpFollowUpReceive src origin => Sys2Proof.Machine.execPtpFollowUpReceive src origin s
  | .tdispLockInterface p => Sys2Proof.Machine.execTdispLockInterface p s
  | .tdispStartInterface p => Sys2Proof.Machine.execTdispStartInterface p s
  | .tdispStopInterface p => Sys2Proof.Machine.execTdispStopInterface p s
  | .chargerFault => Sys2Proof.Machine.execChargerFault s
  | .selvageDwellEnd => Sys2Proof.Machine.execSelvageDwellEnd s
  | .tileCommandRetire panel word => Sys2Proof.Machine.execTileCommandRetire panel word s
  | .dmaTransferDone op => Sys2Proof.Machine.execDmaTransferDone op s
  | .mailboxBundleReadDone bundle => Sys2Proof.Machine.execMailboxBundleReadDone bundle s
  | .flashEraseDone die block res => Sys2Proof.Machine.execFlashEraseDone die block res s

end Sys2Proof.Machine
end

