-- ==== Sys2Proof/Safety.lean ====
section
/-! DEFINITION. What counts as a sound state and a safe step, in the terms that statements use: the canonical form of the
byte memories, a descriptor that waits to run, what a report touches. -/

namespace Sys2Proof.Machine

/-- The byte memories of tiers A and B are in their canonical form. -/
abbrev State.memOk (s : State) : Prop := Memory.wf s.tierA = true ∧ Memory.wf s.tierB = true

/-- `s` with the command `c` at the front of its queue. -/
def State.queued (s : State) (c : Instr) : State := { s with pending := c :: s.pending }

/-- Ticket `id` names the descriptor or control command `o`, which waits to run with opcode `opc`. -/
abbrev Waits (s : State) (opc id : Nat) (o : Op) : Prop := s.op id = some o ∧ o.phase = .ready ∧ o.opcode = opc

/-- The partition of a VF's descriptor. -/
def Op.vf (o : Op) : Nat := o.fn - 1

/-- `t` differs from `s` in what reports use alone: outputs, event sequences, counters, the function registers and rings,
the tickets of descriptors. -/
abbrev OnlyReports (s t : State) : Prop := t = setRep s (repOf t)

/-- The byte of partition `p` at an address of a tier reads the same in `s` and `t`. -/
abbrev SameByte (s t : State) (p tier a : Nat) : Prop := t.ptByte p tier a = s.ptByte p tier a

/-- Ticket `id` has ended with `status`: it is gone, or its record waits for space (R255, R268). -/
def Ended (t : State) (id status : Nat) : Prop := ∀ o, t.op id = some o → o.phase = .done ∧ o.status = status

/-- `t` has the byte memories and the poisoned and written lines of `u`. -/
abbrev MemoryAs (t u : State) : Prop := t.tierA = u.tierA ∧ t.tierB = u.tierB ∧ t.mem = u.mem

/-- No partition lists a unit of tier A or B twice. -/
def State.unitsDistinct (s : State) : Prop := ∀ p tier, ((s.cfg p).units tier).Nodup

/-- A layout block lists no unit of tier A or B twice in one entry. -/
abbrev layDistinct (b : Bytes) : Prop := ∀ p, p < 32 → ∀ tier, ((layCfg b p).units tier).Nodup

/-- The layout in force, and every layout that a mark holds, lists no unit twice; partitions hold what the layout gives. -/
def State.layoutSound (s : State) : Prop :=
  layDistinct s.layout ∧ (∀ p, s.cfg p = if p < 32 then layCfg s.layout p else partInit.cfg)
    ∧ ∀ e ∈ s.mrd.marks, layDistinct e.2.layout ∧ layDistinct e.2.oldLay

/-- `a + i` lies on a line that reads poisoned and that `[a, a + n)` does not cover whole, or that is poisoned for good. -/
abbrev State.keepsPoison (s : State) (p tier a n i : Nat) : Prop :=
  s.poisoned tier (s.phys p tier ((a + i) / 64 * 64)) = true
    ∧ (s.mem.stuck.contains (lineKey tier (s.phys p tier ((a + i) / 64 * 64))) = true
      ∨ ¬ (a ≤ (a + i) / 64 * 64 ∧ (a + i) / 64 * 64 + 64 ≤ a + n))

/-- What lies in line `ln` of partition `p`: the error that the next read of it meets. -/
abbrev State.errorIn (s : State) (p tier ln : Nat) : Option ErrClass := tfind s.mem.upset (lineKey tier (s.phys p tier (ln * 64)))

/-- The memory key of the tier may be used, and no line of `[a, a + n)` is poisoned or holds an error. -/
abbrev State.clean (s : State) (p tier a n : Nat) : Prop :=
  s.memKey p tier = true ∧ ∀ ln ∈ linesOf a n, s.poisoned tier (s.phys p tier (ln * 64)) = false
    ∧ s.errorIn p tier ln = none

/-- The next command of Panel `n` is word `w` of opcode `opc` in partition `p`, whole and with its reserved bits 0; `own`
for a program that the module issued itself (R57). -/
abbrev NextTile (s : State) (n opc p : Nat) (own : Bool) (w : DWord) (ws : List DWord) : Prop :=
  s.tileWords n = some (own, w :: ws) ∧ s.panelPart n = some p ∧ field w.toNat 60 4 = opc ∧ cmdWords w.toNat ≤ ws.length + 1
    ∧ reservedBits w.toNat = 0

/-- The words of the command `w`, as numbers. -/
def cmdArgs (w : DWord) (ws : List DWord) : List Nat := ((w :: ws).take (cmdWords w.toNat)).map (·.toNat)

/-- The command at Panel `n` is not the last of its program. -/
abbrev Panel.goesOn (x : Panel) (words : Nat) : Prop := x.pc + words < x.prog.length

/-- Rows of scratch, or of lines that read without an error. -/
abbrev State.readable (s : State) (p : Nat) (a : AddrWord) (rows : List (Nat × Nat)) : Prop :=
  a.space = 0 ∨ ∀ r ∈ rows, s.clean p a.tier r.1 r.2

/-- The phase of a ciphertext under a binary key: b − Σ a[j] s[j] modulo 2^32 (R166). -/
def lwePhase (key : List Nat) (x : Lwe) : Nat :=
  (x.getD key.length 0 + ((List.range key.length).map (fun j => (2 ^ 32 - x.getD j 0 % 2 ^ 32) * key.getD j 0)).sum) % 2 ^ 32

/-- No byte of tier A or tier B changed. -/
abbrev SameMemory (s t : State) : Prop := t.tierA = s.tierA ∧ t.tierB = s.tierB

/-! ## The fabric -/

/-- Packet `k` is addressed to this module, on a port that is up, has the format of R277 to R279 and TYPE `typ`. -/
abbrev Reaches (s : State) (typ : Nat) (k : Packet) : Prop :=
  s.isRun = true ∧ (tget portInit s.fab.ports k.port).up = true ∧ k.dst = s.ownAddr ∧ k.udpPort.toNat = s.fab.udpPort
    ∧ formatOk k = true ∧ k.hdr.typ.toNat = typ

/-- The stored descriptors that are armed can be read. -/
abbrev State.armedClean (s : State) : Prop := ∀ a ∈ s.fab.armed, s.clean a.part a.tier a.addr 64

/-- The plaintext of `k` under the pair key that a job key gives its two endpoints, where the tag verifies (R275, R276). -/
def State.openUnder (s : State) (k : Packet) (key : Bytes) : Option Bytes :=
  gcmOpen (pairKey key k.hdr.job.toNat s.ownAddr k.hdr.dstPart.toNat k.src k.hdr.srcPart.toNat)
    (pxtNonce (endpointLower k.src k.hdr.srcPart.toNat s.ownAddr k.hdr.dstPart.toNat) k.hdr.txSeq.toNat)
    (hdrBytes k.hdr) k.body k.tag

/-- `k` passes steps 1 to 3 of R280 with the plaintext `plain`. -/
def Arrives (s : State) (typ : Nat) (k : Packet) (plain : Bytes) : Prop :=
  Reaches s typ k ∧ ∃ j key, tfind s.fab.jobs k.hdr.job.toNat = some j ∧ j.part = k.hdr.dstPart.toNat
    ∧ s.jobKey k.hdr.job.toNat = some key ∧ s.openUnder k key = some plain ∧ freshTime s.now k.hdr.txTime.toNat = true

/-- The commands that receive `k`, each with its TYPE. -/
def receives (k : Packet) : List (Nat × Instr) :=
  [(1, .pxtSendReceive k none), (2, .pxtWriteReceive k), (3, .pxtReadReqReceive k []), (4, .pxtReadRespReceive k),
    (5, .pxtAckReceive k), (6, .pxtNackReceive k), (7, .pxtFlushReceive k), (8, .pxtFlushRespReceive k),
    (9, .pxtErrorReceive k)]

/-- Nothing waits for the last message of a job. -/
abbrev State.noUnbind (s : State) (job : Nat) : Prop := ∀ e ∈ s.fab.unbinds, e.1 ≠ job

/-! ## Sessions -/

/-- `sid` names a secured session whose carrier reaches the Thimble (R335, R338). -/
abbrev InSession (s : State) (sid : BitVec 32) (x : Session) : Prop :=
  s.session sid.toNat = some x ∧ x.secured = true ∧ s.carries x.carrier = true

/-- The response of R338: StandardID and vendor ID, then command code plus 0x80, body length, status, body. -/
def vendorRsp (c : Carrier) (cmd status : Nat) (body : Bytes) : Output :=
  .spdm c 0x7E (vendorHead (8 + body.length) ++ (leBytes 1 (cmd + 0x80) ++ zeros 1 ++ leBytes 2 body.length ++ leBytes 2 status ++ zeros 2 ++ body))

/-- No round is open, no key is held, no session stands. -/
abbrev State.secretsGone (t : State) : Prop :=
  t.sec.slots = [] ∧ t.sec.ide = [] ∧ t.sec.sessions = [] ∧ ∀ r, r < 64 → (t.round r).st.running = false

end Sys2Proof.Machine
end

