-- ==== Sys2Proof/Certificates/Slice0/Obligations.lean ====
section
/-! DEFINITION. The statements for the provers: what the commands of the MX-60 do, family by family, and what every step
keeps. Each docstring names the rules of spec/ that its statement formalises; a clause that rests on a choice of the model
names its log entry. -/

section

open Sys2Proof Sys2Proof.Machine

/-! ## The block as a queue of commands -/

/-- A step of a state with command `c` at the front of its queue is `c`'s meaning on the state with the queue's rest; on an
empty queue the module idles. The queue and the idle tick are the model's own form (notes/assumptions/1.md).

Idling scrubs the areas of every aborted round (R115); then it moves the Meridian by 1 ns while no correction is pending, and
no entry of the Graticule has come to its time, and changes nothing else. The tick is the model's own
(notes/assumptions/1.md). -/
def Obligations.StepRunsFrontCommand : Prop :=
  ((∀ (c : Instr) (s : State), step (s.queued c) = exec c s)
   ∧ ∀ s : State, s.pending = [] → step s = .next (idle s))
  ∧ (∀ s : State, s.pending = [] → s.mrd.slew = 0 → (∀ e, s.nextMark = some e → s.isRun = false ∨ s.now + 1 < e.2.time) →
    (∀ e ∈ s.rounds, e.2.scrub = false) → step s = .next { s with now := s.now + 1 })
  ∧ (∀ s : State, s.pending = [] → s.mrd.marks = [] →
    ∃ t, step s = .next t ∧ (∀ r, r < 64 → (t.round r).scrub = false)
      ∧ (∀ r, r < 64 → t.round r = { s.round r with scrub := false }) ∧ (s.memOk → t.memOk))

/-- No command touches the queue of the commands that wait behind it.

Every command answers a next state on every state: no detected error, refusal by status or unmet condition stops the
module (R26, R399). -/
def Obligations.CommandsAnswerAndLeaveTheQueue : Prop :=
  (∀ (c : Instr) (s t : State), exec c s = .next t → t.pending = s.pending)
  ∧ (∀ (c : Instr) (s : State), ∃ t, exec c s = .next t)

/-- Every step from a state whose tiers A and B are in canonical form leaves them in canonical form; so it does the stores of
the Panels and the bytes of slot B. -/
def Obligations.StepsKeepMemoryCanonical : Prop :=
  (∀ s t : State, s.memOk → step s = .next t → t.memOk)
  ∧ (∀ s t : State, (∀ n, Memory.wf (s.panel n).store = true) → step s = .next t → ∀ n, Memory.wf (t.panel n).store = true)
  ∧ ∀ s t : State, Memory.wf s.fw.bytesB = true → step s = .next t → Memory.wf t.fw.bytesB = true

/-- At reset both tiers list nothing and are in canonical form, no command waits, no partition holds resources, and the
module is in AUX_ONLY with the first event sequence numbers and counters at 0 (R23, R376, R404). -/
def Obligations.ResetState : Prop :=
  State.reset.memOk ∧ (∀ n, Memory.wf (State.reset.panel n).store = true) ∧ Memory.wf State.reset.fw.bytesB = true
    ∧ State.reset.pending = [] ∧ State.reset.pwr.phase = .auxOnly ∧ State.reset.fw.load = 0
    ∧ (∀ p, State.reset.enabled p = false) ∧ (∀ src, tget 0 State.reset.evSeq src = 0)
    ∧ (∀ page idx, (repOf State.reset).counter page idx = ⟨0, false⟩)
    ∧ ∀ r, (State.reset.round r).st = .idle

/-! ## Register accesses -/

/-- Accesses of another width, debug views, counter clears: R6, R341, R404, R405. In FAULT_SECURE and RETIRED the operator's
views read 0, the model's choice (notes/assumptions/82.md).

A read of the LO half of a pair answers the register and latches its HI halves for that function, and for no other
(R7); it changes nothing else. -/
def Obligations.RegisterReadsAndClears : Prop :=
  ((∀ (s : State) (fn off width : Nat) (write : Bool), s.isRun = true → width ≠ 32 → off < barBytes fn →
     exec (.badAccessWidth fn off width write) s =
       .next (if write then s.count (pageOf fn) cntBadAccess 1
         else (s.count (pageOf fn) cntBadAccess 1).put (.readData fn off width (2 ^ width - 1))))
   ∧ (∀ (s : State) (off : Nat) (v : Word), s.isRun = true → 0x800000 ≤ off → off < barBytes 0 →
     exec (.debugViewWrite off v) s = .next (s.countMod cntSecDbgWrite))
   ∧ (∀ (s : State) (fn idx : Nat), s.isRun = true → idx < pageCounters fn →
     ∃ t, exec (.counterOvfClear fn idx) s = .next t ∧ (repOf t).counter (pageOf fn) idx = ⟨0, false⟩
       ∧ (∀ pg k, (pg, k) ≠ (pageOf fn, idx) → k < 64 → (repOf t).counter pg k = (repOf s).counter pg k)
       ∧ t = { s with cntMod := t.cntMod, cntPart := t.cntPart })
   ∧ (∀ (s : State) (fn : Nat), s.isRun = true → ∃ t, exec (.cntCtlClearAll fn) s = .next t
       ∧ (∀ k, k < 64 → (repOf t).counter (pageOf fn) k = ⟨0, false⟩)
       ∧ (∀ pg k, pg ≠ pageOf fn → k < 64 → (repOf t).counter pg k = (repOf s).counter pg k)
       ∧ t = { s with cntMod := t.cntMod, cntPart := t.cntPart }))
  ∧ (∀ (s : State) (fn off : Nat), s.isRun = true → off < 0x800000 → ¬ (fn = 0 ∧ off = offRngRaw) →
       ∃ t, exec (.loReadLatch fn off) s = .next t
         ∧ t.out = s.out ++ [.readData fn off 32 (s.readReg fn off)]
         ∧ (∀ e ∈ s.latches fn off, t.readReg fn e.1 = e.2 % 2 ^ 32)
         ∧ (∀ f, f ≠ fn → t.fn f = s.fn f)
         ∧ t = { s with out := t.out, hif := t.hif })
  ∧ (∀ (s : State) (off : Nat), s.isRun = true → 0x800000 ≤ off → off < barBytes 0 → 2 ≤ s.sec.lifecycle →
       exec (.loReadLatch 0 off) s = .next (s.put (.readData 0 off 32 0)))

/-- Writes of the fields of GLB, MEM, FLC and FAB set them under their access codes, on the PF alone where the rule says so
(R20, R21, R212, R246, R303).

A pair takes effect when its HI half is written, with the LO half written before it (R7): SEC_DBG_WIN, whose bits
[22:0] are 0, and FW_MBOX_ADDR, whose bits [3:0] are 0 (R352, R371). -/
def Obligations.ModuleRegisterWrites : Prop :=
  ((∀ (s : State) (v : Word), s.isRun = true →
     exec (.registerWrite 0 0x4 v) s = .next { s with glb := { s.glb with det := v.toNat % 2 = 1 } })
   ∧ (∀ (s : State) (fn : Nat) (v : Word), s.isRun = true → fn ≠ 0 → exec (.registerWrite fn 0x4 v) s = .next s)
   ∧ (∀ (s : State) (v : Word), s.isRun = true →
     exec (.registerWrite 0 0x400000 v) s = .next { s with
       mem := { s.mem with
         patrolB := (if 1 ≤ v.toNat / 256 % 256 ∧ v.toNat / 256 % 256 ≤ 168 then v.toNat / 256 % 256 else s.mem.patrolB)
         patrolA := (if 1 ≤ v.toNat % 256 ∧ v.toNat % 256 ≤ 168 then v.toNat % 256 else s.mem.patrolA) } })
   ∧ (∀ (s : State) (v : Word), s.isRun = true →
     exec (.registerWrite 0 0x480008 v) s = .next { s with
       flc := { s.flc with
         patrol := (if 1 ≤ v.toNat % 32 ∧ v.toNat % 32 ≤ 30 then v.toNat % 32 else s.flc.patrol) } })
   ∧ (∀ (s : State) (v : Word), s.isRun = true →
     exec (.registerWrite 0 0x500000 v) s = .next { s with
       fab := { s.fab with
         udpPort := v.toNat / 2 ^ 16
         timeout := (if v.toNat / 256 % 256 = 0 then s.fab.timeout else v.toNat / 256 % 256)
         rnr := (if v.toNat % 256 = 0 then s.fab.rnr else v.toNat % 256) } })
   ∧ (∀ (s : State) (j : Nat) (v : Word), s.isRun = true → j < 4 → s.fab.jobs ≠ [] →
     exec (.registerWrite 0 (0x500010 + 4 * j) v) s = .next s))
  ∧ ((∀ (s t : State) (lo hi : Word), s.isRun = true → exec (.registerWrite 0 0x5C0010 lo) s = .next t →
       t.sec = s.sec ∧ exec (.registerWrite 0 0x5C0014 hi) t =
         .next { t with sec := { t.sec with dbgWin := hi.toNat * 2 ^ 32 + lo.toNat / 2 ^ 23 * 2 ^ 23 } })
     ∧ (∀ (s t : State) (lo hi : Word), s.isRun = true → exec (.registerWrite 0 0x680010 lo) s = .next t →
       t.fw = s.fw ∧ exec (.registerWrite 0 0x680014 hi) t =
         .next { t with fw := { t.fw with mboxLo := BitVec.ofNat 32 (lo.toNat / 16 * 16), mboxHi := hi } }))

/-! ## The host interface -/

/-- The registers of the ingest, HIF, MRD and RNG blocks that a plain write reaches (R163, R252, R253, R272, R304, R352).

Blocks without a writable register ignore writes on every function: PNL, AGG, LOOM and SHC, GRU, PWR (R70, R120, R144,
R189, R393); so does every register of a block that only the PF decodes on a VF (R212, R246, R303, R352, R371). -/
def Obligations.FunctionRegisterWrites : Prop :=
  ((∀ (s : State) (fn j : Nat) (v : Word), s.serving = true → j < 16 →
     exec (.registerWrite fn (0x100000 + 4 * j) v) s =
       .next (s.setFn fn { s.fn fn with win := { (s.fn fn).win with words := tset j v (s.fn fn).win.words } }))
   ∧ (∀ (s : State) (fn : Nat) (v : Word), s.isRun = true → v.toNat / 2 ^ 30 % 2 = 1 →
     exec (.registerWrite fn 0x100044 v) s = .next (s.setFn fn { s.fn fn with win := { (s.fn fn).win with lost := false } }))
   ∧ (∀ (s : State) (fn : Nat) (v : Word), s.serving = true → v.toNat % 2 = 1 → (s.fn fn).win.busy = true →
     exec (.registerWrite fn 0x100040 v) s = .next (s.setFn fn { s.fn fn with win := { (s.fn fn).win with lost := true } }))
   ∧ (∀ (s : State) (p : Nat) (v : Word), s.isRun = true → p < 32 →
     exec (.registerWrite 0 (0x320000 + 0x400 * p) v) s =
         .next (s.setIng p { s.ing p with cut := v.toNat % 128 })
       ∧ exec (.registerWrite (p + 1) 0x320000 v) s = .next (s.setIng p { s.ing p with cut := v.toNat % 128 })
       ∧ exec (.registerWrite (p + 1) 0x320010 v) s =
         .next (s.setIng p { s.ing p with ien := BitVec.ofNat 32 (v.toNat % 2048) }))
   ∧ (∀ (s : State) (fn : Nat) (v : Word), s.isRun = true → v.toNat / 2 ^ 25 % 2 = 1 →
     exec (.registerWrite fn 0x580014 v) s = .next { s with mrd := { s.mrd with stepped := false } })
   ∧ (∀ (s : State) (v : Word), s.isRun = true → v.toNat / 2 ^ 31 = 1 →
     exec (.registerWrite 0 0x5E0000 v) s = .next { s with rng := { s.rng with empty := false } }))
  ∧ (∀ (s : State) (fn off : Nat) (v : Word), s.isRun = true →
       ((0x200000 ≤ off ∧ off < 0x320000) ∨ (0x340000 ≤ off ∧ off < 0x400000) ∨ (0x600000 ≤ off ∧ off < 0x680000)
         ∨ (fn ≠ 0 ∧ ((0x480000 ≤ off ∧ off < 0x580000) ∨ (0x5C0000 ≤ off ∧ off < 0x700000)))) →
       exec (.registerWrite fn off v) s = .next s)

/-- RING_CREATE on rings that are DISABLED or DETACHED, with fields of R254 in range, makes them ACTIVE with the submission
indices at 0 and its own bases, and starts the three heartbeat intervals (R254, R265).

RING_DELETE makes ACTIVE or DETACHED rings DELETING and stays in progress; once the fetched descriptors have ended they
become DISABLED and the command completes (R254, R265). -/
def Obligations.RingsCreateAndDelete : Prop :=
  (∀ (s : State) (fn id : Nat) (o : Op), s.control fn 0x08 .ready = some id → s.op id = some o →
     ringFieldsOk o.bytes = true → ((s.fn fn).rings = .disabled ∨ (s.fn fn).rings = .detached) →
     ∃ t, exec (.ringCreate fn) s = .next t ∧ (t.fn fn).rings = .active ∧ (t.fn fn).rs.sqTail = 0
       ∧ (t.fn fn).rs.sqHead = 0 ∧ (t.fn fn).rs.sqBase = le o.bytes 16 8 ∧ (t.fn fn).rs.cqBase = le o.bytes 24 8
       ∧ (t.fn fn).rs.eqBase = le o.bytes 32 8 ∧ (t.fn fn).hbFrom = s.now ∧ OnlyReports s t)
  ∧ ((∀ (s : State) (fn id : Nat) (o : Op), s.control fn 0x09 .ready = some id → s.op id = some o →
       ((s.fn fn).rings = .active ∨ (s.fn fn).rings = .detached) →
       ∃ t, exec (.ringDelete fn) s = .next t ∧ (t.fn fn).rings = .deleting
         ∧ t.op id = some { o with phase := .running } ∧ OnlyReports s t)
     ∧ (∀ (s : State) (fn id : Nat), s.control fn 0x09 .running = some id → (s.fn fn).rings = .deleting →
       s.outstanding fn = false →
       ∃ t, exec (.ringDeleteDone fn) s = .next t ∧ (t.fn fn).rings = .disabled ∧ t.op id = none ∧ OnlyReports s t))

/-- Doorbells within range set their index; a doorbell on rings that do not act, or out of range, changes nothing but
CNT_HIF_BAD_DOORBELL (R255).

A fetch moves the consumer index of ACTIVE rings past what it brought; the head of the fetched descriptors becomes a
ticket, or completes with the status of the first failing row of R258, once a token and FENCE permit (R256, R258, R343,
R345).

Vector 0 after COALESCE_US, vector 1 after its 10 us of holdoff (R261). -/
def Obligations.DoorbellsFetchAndDispatch : Prop :=
  ((∀ (s : State) (fn : Nat) (v : Word), s.isRun = true → (s.fn fn).rung = true → v.toNat % 65536 < 2 ^ (s.fn fn).rs.sqLog →
     exec (.hifSqTailWrite fn v) s =
       .next (s.setFn fn { s.fn fn with rs := { (s.fn fn).rs with sqTail := v.toNat % 65536 } }))
   ∧ (∀ (s : State) (fn : Nat) (v : Word), s.isRun = true → (s.fn fn).rung = true → v.toNat % 65536 < 2 ^ (s.fn fn).rs.cqLog →
     ringLive (s.fn fn).rs.cqLog (v.toNat % 65536) (s.fn fn).rs.cqHead ≤
       ringLive (s.fn fn).rs.cqLog (s.fn fn).rs.cqProd (s.fn fn).rs.cqHead →
     ∃ t, exec (.hifCqHeadWrite fn v) s = .next t ∧ (t.fn fn).rs.cqHead = v.toNat % 65536 ∧ OnlyReports s t)
   ∧ (∀ (s : State) (fn : Nat) (v : Word), s.isRun = true → (s.fn fn).rung = true → v.toNat % 65536 < 2 ^ (s.fn fn).rs.eqLog →
     ringLive (s.fn fn).rs.eqLog (v.toNat % 65536) (s.fn fn).rs.eqHead ≤
       ringLive (s.fn fn).rs.eqLog (s.fn fn).rs.eqProd (s.fn fn).rs.eqHead →
     ∃ t, exec (.hifEqHeadWrite fn v) s = .next t ∧ (t.fn fn).rs.eqHead = v.toNat % 65536 ∧ OnlyReports s t)
   ∧ ∀ (s : State) (fn : Nat) (v : Word), s.isRun = true → (s.fn fn).rung = false →
     exec (.hifSqTailWrite fn v) s = .next (s.badDoorbell fn) ∧ exec (.hifCqHeadWrite fn v) s = .next (s.badDoorbell fn)
       ∧ exec (.hifEqHeadWrite fn v) s = .next (s.badDoorbell fn))
  ∧ ((∀ (s : State) (fn : Nat) (descs : List Bytes), s.serving = true → (s.fn fn).rings = .active →
       descs.length ≤ (s.fn fn).canFetch →
       ∃ t, exec (.descriptorFetchDone fn descs) s = .next t
         ∧ (t.fn fn).rs.sqHead = ((s.fn fn).rs.sqHead + descs.length) % 2 ^ (s.fn fn).rs.sqLog
         ∧ (t.fn fn).fetched.length = (s.fn fn).fetched.length + descs.length ∧ (∀ f, f ≠ fn → t.fn f = s.fn f)
         ∧ t = { s with hif := t.hif })
     ∧ (∀ (s : State) (fn : Nat) (x : Fetched) (xs : List Fetched), (s.fn fn).fetched = x :: xs → x.src = .ring →
       s.serving = true → s.markDue = false → s.dispatchHeld fn = false → bit (byteAt x.bytes 1) 0 = false →
       s.nextTok fn ≠ .none →
       (s.dispatchStatus fn x = stOk →
         exec (.descriptorDispatch fn) s = .next { s.setFn fn { s.fn fn with fetched := xs } with
           ops := tset s.nextOp ⟨fn, x.idx, x.bytes, .ring, s.nextTok fn, s.glb.det, .ready, 0, [], s.now⟩ s.ops
           nextOp := s.nextOp + 1 })
       ∧ (s.dispatchStatus fn x ≠ stOk → (byteAt x.bytes 0 < 0x70 ∨ 0x73 < byteAt x.bytes 0) →
         ∃ t, exec (.descriptorDispatch fn) s = .next t ∧ Ended t s.nextOp (s.dispatchStatus fn x)
           ∧ OnlyReports { s with nextOp := s.nextOp + 1 } t)))
  ∧ ((∀ (s : State) (fn : Nat), (s.fn fn).rings = .active → (s.fn fn).unsig ≠ 0 → (s.fn fn).rs.coUs ≠ 0 →
       ∃ t, exec (.coalesceTimerExpiry fn) s = .next t ∧ t.out = s.out ++ [.msix fn 0] ∧ (t.fn fn).unsig = 0
         ∧ t.now = (s.atLeast ((s.fn fn).unsigAt + (s.fn fn).rs.coUs * 1000)).now ∧ t = { s with now := t.now, out := t.out, hif := t.hif })
     ∧ (∀ (s : State) (fn at0 : Nat), (s.fn fn).rings = .active → (s.fn fn).ev1Pend = true → (s.fn fn).ev1At = some at0 →
       ∃ t, exec (.eventVectorHoldoffEnd fn) s = .next t ∧ t.out = s.out ++ [.msix fn 1] ∧ (t.fn fn).ev1Pend = false
         ∧ t.now = (s.atLeast (at0 + 10000)).now ∧ t = { s with now := t.now, out := t.out, hif := t.hif }))

/-- Heartbeats, HIF_HB_CFG and the reset-held area (R265, R270, R272).

Every cause of driver loss detaches ACTIVE rings of its function with its CAUSE, and touches reports alone (R265). -/
def Obligations.DriverLossDetaches : Prop :=
  ((∀ (s : State) (fn : Nat) (v : Word), s.isRun = true →
     exec (.hifHeartbeat fn v) s = .next (s.setFn fn { s.fn fn with hbVal := v, hbFrom := s.now }))
   ∧ (∀ (s : State) (fn : Nat) (v : Word), s.isRun = true → 10 ≤ v.toNat % 65536 → v.toNat % 65536 ≤ 60000 →
     v.toNat % 65536 ≠ (s.fn fn).hbMs →
     exec (.hifHbCfgWrite fn v) s = .next (s.setFn fn { s.fn fn with hbMs := v.toNat % 65536, hbFrom := s.now }))
   ∧ (∀ (s : State) (fn : Nat) (v : Word), s.isRun = true →
     ((1 ≤ v.toNat % 65536 ∧ v.toNat % 65536 ≤ 9) ∨ 60000 < v.toNat % 65536) → exec (.hifHbCfgWrite fn v) s = .next s)
   ∧ (∀ (s : State) (fn : Nat), s.isRun = true →
     exec (.hifHeldStatClear fn) s =
       .next (s.setFn fn { s.fn fn with win := { (s.fn fn).win with heldValid := false, heldReplaced := false } })))
  ∧ ((∀ (s : State) (fn : Nat), (s.fn fn).rings = .active → (s.fn fn).hbMs ≠ 0 →
       ∃ t, exec (.heartbeatExpiry fn) s = .next t ∧ (t.fn fn).rings = .detached ∧ (t.fn fn).cause = 1
         ∧ OnlyReports { s with now := t.now } t)
     ∧ (∀ (s : State) (fn : Nat), (s.fn fn).rings = .active →
       (∃ t, exec (.busMasterEnableClear fn) s = .next t ∧ (t.fn fn).rings = .detached ∧ (t.fn fn).cause = 3 ∧ OnlyReports s t)
       ∧ ∃ t, exec (.d3hotEntry fn) s = .next t ∧ (t.fn fn).rings = .detached ∧ (t.fn fn).cause = 7 ∧ OnlyReports s t)
     ∧ (∀ (s : State) (p : Nat), p < 32 → (s.fn (p + 1)).rings = .active →
       ∃ t, exec (.tdispError p) s = .next t ∧ (t.fn (p + 1)).rings = .detached ∧ (t.fn (p + 1)).cause = 6
         ∧ (t.fn (p + 1)).tdi = .error ∧ OnlyReports s t)
     ∧ (∀ (s : State), ∃ t, exec .linkDown s = .next t ∧ OnlyReports s t
       ∧ ∀ f, f ≤ 32 → (s.fn f).rings = .active → (t.fn f).rings = .detached ∧ (t.fn f).cause = 2))

/-- The TDI states of R271, and a request outside the IDE stream.

Function-level and hot resets (R269, R270): the function's HIF registers return, its rings are detached, its held area is
kept; the registers of other functions and all of tiers A and B stay. -/
def Obligations.FunctionResets : Prop :=
  ((∀ (s : State) (p : Nat), p < 32 → (s.fn (p + 1)).tdi = .unlocked →
     exec (.tdispLockInterface p) s = .next (s.setFn (p + 1) { s.fn (p + 1) with tdi := .locked }))
   ∧ (∀ (s : State) (p : Nat), p < 32 → (s.fn (p + 1)).tdi = .locked →
     exec (.tdispStartInterface p) s = .next (s.setFn (p + 1) { s.fn (p + 1) with tdi := .run }))
   ∧ (∀ (s : State) (p : Nat), p < 32 →
     exec (.tdispStopInterface p) s = .next (s.setFn (p + 1) { s.fn (p + 1) with tdi := .unlocked }))
   ∧ (∀ (s : State) (p : Nat), ((s.fn (p + 1)).tdi = .locked ∨ (s.fn (p + 1)).tdi = .run) →
     exec (.nonIdeRequest p) s = .next ((s.put (.unsupported (p + 1))).count (some p) 50 1)))
  ∧ ((∀ (s : State) (p : Nat), p < 32 → s.sec.sessions = [] →
       ∃ t, exec (.vfFlr p) s = .next t ∧ (t.fn (p + 1)).hbMs = 0 ∧ (t.fn (p + 1)).win.words = []
         ∧ (t.fn (p + 1)).win.heldRec = (s.fn (p + 1)).win.heldRec ∧ t.ing p = (s.ing p).atReset ∧ tget 0 t.glb.detVf p = 0
         ∧ ((s.fn (p + 1)).rings = .active → (t.fn (p + 1)).rings = .detached ∧ (t.fn (p + 1)).cause = 4)
         ∧ (∀ q, q ≠ p → t.ing q = s.ing q) ∧ t.glb.detPf = s.glb.detPf ∧ SameMemory s t)
     ∧ (∀ (s : State), s.sec.sessions = [] →
       ∃ t, exec .pfFlr s = .next t ∧ t.glb.detPf = 0 ∧ t.sec.dbgWin = 0 ∧ t.rng.tap = false
         ∧ (∀ f, f ≤ 32 → (t.fn f).hbMs = 0 ∧ (t.fn f).win.words = []) ∧ SameMemory s t)
     ∧ (∀ (s : State), s.sec.sessions = [] →
       ∃ t, exec .hotReset s = .next t
         ∧ (∀ f, f ≤ 32 → (t.fn f).win.words = [] ∧ ((s.fn f).rings = .active → (t.fn f).cause = 5)) ∧ SameMemory s t)
     ∧ (∀ (s : State), s.sec.sessions = [] → s.pwr.perst = false →
       ∃ t, exec .perstNAssert s = .next t ∧ t.pwr = { s.pwr with perst := true } ∧ SameMemory s t
         ∧ ∀ f, f ≤ 32 → (s.fn f).rings = .active → (t.fn f).rings = .detached)
     ∧ ∀ (s : State), exec .perstNRelease s = .next { s with pwr := { s.pwr with perst := false } })

/-! ## Reports -/

/-- A counter adds what is counted until it reaches 2^48 − 1: it then sets OVF and holds, and raises EV_CNT_OVERFLOW, once;
the clear acts on the count and OVF together (R405). The event is followed to where the PF holds it while detached. -/
def Obligations.CountersSaturate : Prop :=
  ∀ (r : Rep) (page : Option Nat) (idx n : Nat), let c := r.counter page idx
    (c.ovf = false → c.count + n < 2 ^ 48 - 1 → (r.count page idx n).counter page idx = ⟨c.count + n, false⟩
      ∧ (r.count page idx n).evSeq = r.evSeq ∧ (r.count page idx n).out = r.out)
    ∧ (c.ovf = false → 2 ^ 48 - 1 ≤ c.count + n → (r.count page idx n).counter page idx = ⟨2 ^ 48 - 1, true⟩
      ∧ (page = none → (r.fn 0).live = false → (r.fn 0).heldE.length < 32768 →
        ((r.count page idx n).fn 0).heldE = (r.fn 0).heldE
          ++ [⟨srcGlobal, evCntOverflow, tget 0 r.evSeq srcGlobal, r.now, 0xFF, leBytes 1 0xFF ++ leBytes 2 idx⟩]
        ∧ tget 0 (r.count page idx n).evSeq srcGlobal = (tget 0 r.evSeq srcGlobal + 1) % 2 ^ 32))
    ∧ (c.ovf = true → (r.count page idx n).counter page idx = c ∧ (r.count page idx n).evSeq = r.evSeq
      ∧ (r.count page idx n).out = r.out)

/-- Records reach their ring: a descriptor that ends writes 32 bytes at the producer index with its TAG, status, opcode, ring
index, detail and stamp and the phase of the pass, unless QUIET says not to; an event carries its source's sequence (R23,
R255, R257, R259, R397). -/
def Obligations.RecordsReachTheirRing : Prop :=
  (∀ (s : State) (id status : Nat) (detail : Bytes) (o : Op), s.op id = some o → o.origin ≠ .control →
    let t := s.finish id status detail
    let h := s.fn o.fn
    (o.quiet = true → status = 0 → t.out = s.out ∧ t.op id = none)
    ∧ ((o.quiet = false ∨ status ≠ 0) → h.live = true → h.heldC = [] → h.stuck = [] → h.waitC = [] →
      ringRoom h.rs.cqLog h.rs.cqProd h.rs.cqHead = true →
      ∃ rec l, t.out = s.out ++ .hostWrite o.fn (h.rs.cqBase + 32 * h.rs.cqProd) rec :: l ∧ t.op id = none
        ∧ rec.length = 32 ∧ le rec 0 4 = o.tag ∧ le rec 4 2 = status % 65536 ∧ byteAt rec 6 = o.opcode
        ∧ bit (byteAt rec 7) 0 = h.rs.cqPass ∧ bit (byteAt rec 7) 1 = false ∧ le rec 8 2 = o.idx % 65536
        ∧ le rec 10 2 = h.rs.sqHead % 65536 ∧ slice rec 16 8 = slice detail 0 8 ∧ le rec 24 8 = stampOf s.now
        ∧ (t.fn o.fn).rs.cqProd = (h.rs.cqProd + 1) % 2 ^ h.rs.cqLog))
  ∧ ∀ (s : State) (src code : Nat) (detail : Bytes), let t := s.raise src code 0xFF detail
    let h := s.fn 0
    (src ≠ srcGlobal → tget 0 t.evSeq src = (tget 0 s.evSeq src + 1) % 2 ^ 32)
    ∧ (h.live = true → h.heldE = [] → ringRoom h.rs.eqLog h.rs.eqProd h.rs.eqHead = true →
      ∃ rec l, t.out = s.out ++ .hostWrite 0 (h.rs.eqBase + 32 * h.rs.eqProd) rec :: l ∧ rec.length = 32
        ∧ le rec 0 2 = src % 65536 ∧ le rec 2 2 = code % 65536 ∧ le rec 4 4 = tget 0 s.evSeq src % 2 ^ 32
        ∧ le rec 8 8 = stampOf s.now ∧ byteAt rec 16 = 0xFF ∧ slice rec 18 13 = slice detail 0 13
        ∧ bit (byteAt rec 31) 7 = h.rs.eqPass ∧ (t.fn 0).rs.eqProd = (h.rs.eqProd + 1) % 2 ^ h.rs.eqLog)

/-! ## The memory under every command -/

/-- A write that meets no LASTING error puts its bytes where the unit table says, but on a poisoned line that it does not
cover whole or that is poisoned for good, and touches no other byte of either tier (R193, R197, R201, R205).

A read of clean lines answers the bytes, with ST_OK, and changes nothing; a poisoned line reads as zeros and gives
ST_MEM_POISON with the first such line, where no other line holds an error (R201, R409). Without its memory key neither
moves a byte: ST_SEC_SLOT_ATTR (R327). -/
def Obligations.MemoryReadsAndWrites : Prop :=
  (∀ (s : State) (p tier a : Nat) (bs : Bytes), tier < 2 → s.unitsDistinct → s.inUnits p tier a bs.length = true →
     s.memOk → s.memKey p tier = true → (∀ ln ∈ linesOf a bs.length, s.errorIn p tier ln ≠ some .lasting) →
     let t := (s.memWrite p tier a bs).1
     (∀ i, i < bs.length → ¬ s.keepsPoison p tier a bs.length i → t.ptByte p tier (a + i) = bs.getD i 0)
       ∧ (∀ i, i < bs.length → s.keepsPoison p tier a bs.length i → t.ptByte p tier (a + i) = s.ptByte p tier (a + i))
       ∧ (∀ tr x, tr < 2 → (∀ i, i < bs.length → ¬ (tr = tier ∧ x = s.phys p tier (a + i))) →
         rdByte (t.memOf tr) x = rdByte (s.memOf tr) x)
       ∧ OnlyReports { s with tierA := t.tierA, tierB := t.tierB, mem := t.mem } t)
  ∧ ((∀ (s : State) (p tier a n : Nat), s.clean p tier a n →
       s.memRead p tier a n = (s, ⟨s.ptBytes p tier a n, none, none, false, false⟩))
     ∧ (∀ (s : State) (p tier a n i : Nat), s.memKey p tier = true → (∀ ln ∈ linesOf a n, s.errorIn p tier ln = none) → i < n →
       s.poisoned tier (s.phys p tier (a + i)) = true →
       (s.memRead p tier a n).1 = s ∧ (s.memRead p tier a n).2.data.getD i 0 = 0
         ∧ (s.memRead p tier a n).2.status = stMemPoison ∧ (s.memRead p tier a n).2.line ≤ (a + i) / 64 * 64)
     ∧ ∀ (s : State) (p tier a n : Nat) (bs : Bytes), s.memKey p tier = false →
       (s.memRead p tier a n).1 = s ∧ (s.memRead p tier a n).2.data = zeros n ∧ (s.memRead p tier a n).2.status = stSecSlotAttr
         ∧ (s.memWrite p tier a bs).1 = s ∧ (s.memWrite p tier a bs).2.status = stSecSlotAttr)

/-- No layout in force, and none that a mark will apply, lists a unit twice: the unit table maps the bytes of a partition to
distinct bytes (R193, R318). The invariant holds at reset. -/
def Obligations.StepsKeepTheLayoutSound : Prop :=
  (∀ s t : State, s.layoutSound → step s = .next t → t.layoutSound) ∧ State.reset.layoutSound
    ∧ ∀ s : State, s.layoutSound → s.unitsDistinct

/-! ## Host descriptors -/

/-- NOP ends with ST_OK at once and changes nothing but reports (R262).

DMA_IN writes what host memory returned; DMA_OUT writes what the tier holds to host memory; DMA_MOVE copies; each waits
for its last byte, and then ends with the status that the accesses met (R262, R409).

A DMA on a range that a round or a key set locks, out of a sealed range, or whose memory key cannot be used, ends with that
status and moves nothing (R12, R100, R170, R327, R334); so does a DMA_IN or DMA_OUT while its host cannot be reached (R267).
An error that a DMA meets first arises in its line, which the model keeps (notes/assumptions/3.md). -/
def Obligations.DmaMovesBytes : Prop :=
  (∀ (s : State) (id : Nat) (o : Op), Waits s 0x00 id o →
     ∃ t, exec (.nop id) s = .next t ∧ Ended t id stOk ∧ OnlyReports s t)
  ∧ ((∀ (s : State) (id : Nat) (o : Op) (data : Bytes), Waits s 0x01 id o → s.reachable o.fn = true →
       let a := addrAt o.bytes 16
       let n := le o.bytes 24 8
       s.dmaLock o.vf a.tier a.addr n false = stOk →
       let w := s.memWrite o.vf a.tier a.addr (slice data 0 n)
       exec (.dmaIn id data) s = .next (w.1.setOp id
         { o with phase := .running, status := destStatus w.2, detail := dmaDetail (destStatus w.2) w.2.line }))
     ∧ (∀ (s : State) (id : Nat) (o : Op) (errs : List LineErr), Waits s 0x02 id o → s.reachable o.fn = true →
       let a := addrAt o.bytes 16
       let n := le o.bytes 24 8
       s.dmaLock o.vf a.tier a.addr n true = stOk →
       let r := (s.arise errs).memRead o.vf a.tier a.addr n
       exec (.dmaOut id errs) s = .next ({ r.1 with out := r.1.out ++ [Output.hostWrite o.fn (le o.bytes 8 8) r.2.data] }.setOp id
         { o with phase := .running, status := r.2.status, detail := dmaDetail r.2.status r.2.line }))
     ∧ (∀ (s : State) (id : Nat) (o : Op) (errs : List LineErr), Waits s 0x03 id o →
       let a := addrAt o.bytes 8
       let b := addrAt o.bytes 16
       let n := le o.bytes 24 8
       s.dmaLock o.vf a.tier a.addr n true = stOk → s.dmaLock o.vf b.tier b.addr n false = stOk →
       let r := (s.arise errs).memRead o.vf a.tier a.addr n
       let w := r.1.memWrite o.vf b.tier b.addr r.2.data
       ∃ o', exec (.dmaMove id errs) s = .next (w.1.setOp id o') ∧ o'.phase = .running ∧ o'.opcode = 0x03 ∧ o'.fn = o.fn
         ∧ (r.2.status = stMemUncorrectable → o'.status = stMemUncorrectable)
         ∧ (r.2.status = stOk → w.2.status = stOk → o'.status = stOk))
     ∧ ∀ (s : State) (id : Nat) (o : Op), s.op id = some o → o.phase = .running → 1 ≤ o.opcode → o.opcode ≤ 3 →
       ∃ t, exec (.dmaTransferDone id) s = .next t ∧ Ended t id o.status ∧ OnlyReports s t)
  ∧ (∀ (s : State) (id : Nat) (o : Op) (data : Bytes) (errs : List LineErr),
       let a := addrAt o.bytes 16
       let n := le o.bytes 24 8
       (Waits s 0x01 id o → s.aggLocked o.vf a.tier a.addr n = true →
         ∃ t, exec (.dmaIn id data) s = .next t ∧ Ended t id stAggLocked ∧ OnlyReports s t)
       ∧ (Waits s 0x01 id o → s.aggLocked o.vf a.tier a.addr n = false → s.gruLocked o.vf a.tier a.addr n = true →
         ∃ t, exec (.dmaIn id data) s = .next t ∧ Ended t id stGruLocked ∧ OnlyReports s t)
       ∧ (Waits s 0x02 id o → s.aggLocked o.vf a.tier a.addr n = false → s.gruLocked o.vf a.tier a.addr n = false →
         s.sealedHit o.vf a.tier a.addr n = true →
         ∃ t, exec (.dmaOut id errs) s = .next t ∧ Ended t id stSecSealed ∧ OnlyReports (s.arise errs) t)
       ∧ (Waits s 0x01 id o → s.aggLocked o.vf a.tier a.addr n = false → s.gruLocked o.vf a.tier a.addr n = false →
         s.memKey o.vf a.tier = false →
         ∃ t, exec (.dmaIn id data) s = .next t ∧ Ended t id stSecSlotAttr ∧ OnlyReports s t)
       ∧ (Waits s 0x01 id o → s.dmaLock o.vf a.tier a.addr n false = stOk → s.reachable o.fn = false →
         ∃ t, exec (.dmaIn id data) s = .next t ∧ Ended t id stHifHostUnreachable ∧ OnlyReports s t))

/-- HOST_SEAM_ADD sets its COUNT addends out for elements FIRST to FIRST + COUNT − 1 of its region, and waits for their
commitment; a failing check ends it with that check's status and adds nothing (R263).

WEIGHT_LOAD decrypts its image into DST and seals the range under the weight's digest, or blanks DST where the tag
fails; WEIGHT_LOAD with RELEASE blanks the range and ends the seal, unless a round or an evaluator has locked it since (R100,
R170, R333, R334). -/
def Obligations.HostAddsAndWeightImages : Prop :=
  (∀ (s : State) (id : Nat) (o : Op) (data : Bytes), Waits s 0x04 id o →
     (∀ r, s.hostAddStatus o.vf o.bytes = stOk → s.reachable o.fn = true → s.region o.vf (le o.bytes 28 2) = some r →
       ∃ t x, exec (.hostSeamAdd id data) s = .next t ∧ tfind t.xfers s.nextX = some x ∧ t.nextX = s.nextX + 1
         ∧ x.src = .host id ∧ x.dst = .region o.vf (le o.bytes 28 2) r.defNo r.tier r.base r.kind ∧ x.held = 0 ∧ x.done = 0
         ∧ x.rest.map (·.1) = (List.range (le o.bytes 24 4)).map (le o.bytes 16 8 + ·)
         ∧ t.op id = some { o with phase := .running }
         ∧ OnlyReports { s with xfers := t.xfers, nextX := t.nextX } t)
     ∧ (s.hostAddStatus o.vf o.bytes ≠ stOk →
       ∃ t, exec (.hostSeamAdd id data) s = .next t ∧ Ended t id (s.hostAddStatus o.vf o.bytes) ∧ OnlyReports s t))
  ∧ ((∀ (s : State) (id : Nat) (o : Op) (data : Bytes) (errs : List LineErr), Waits s 0x06 id o →
       bit (byteAt o.bytes 10) 0 = false → s.weightStatus o.vf o.bytes = stOk →
       (bit (byteAt o.bytes 10) 1 = true → s.reachable o.fn = true) →
       let dst := addrAt o.bytes 24
       let n := le o.bytes 32 8
       let r := if bit (byteAt o.bytes 10) 1 then (s.arise errs, { readInit with data := slice data 0 (n + 32) })
         else (s.arise errs).memRead o.vf (addrAt o.bytes 16).tier (addrAt o.bytes 16).addr (n + 32)
       let opened := gcmOpen (s.slot (byteAt o.bytes 9)).key (slice r.2.data 0 12) [] (slice r.2.data 32 n) (slice r.2.data 16 16)
       zeroAt r.2.data 12 4 = true → r.2.good = true →
       (∀ plain, opened = some plain → ∃ t, exec (.weightLoad id data errs) s = .next t
         ∧ tfind t.sec.weights (weightKey o.vf (byteAt o.bytes 8)) = some ⟨dst.tier, dst.addr, n, sha384 plain⟩
         ∧ MemoryAs t (r.1.memWrite o.vf dst.tier dst.addr plain).1
         ∧ (r.2.status = stOk → (r.1.memWrite o.vf dst.tier dst.addr plain).2.status = stOk → Ended t id stOk))
       ∧ (opened = none → ∃ t, exec (.weightLoad id data errs) s = .next t ∧ t.sec.weights = s.sec.weights
         ∧ MemoryAs t (r.1.blankRange o.vf dst.tier dst.addr n) ∧ Ended t id stSecWeightAuth))
     ∧ ∀ (s : State) (id : Nat) (o : Op) (w : Weight), Waits s 0x06 id o → bit (byteAt o.bytes 10) 0 = true →
       byteAt o.bytes 8 ≤ 63 → byteAt o.bytes 10 < 4 → zeroAt o.bytes 11 5 = true → zeroAt o.bytes 40 24 = true →
       tfind s.sec.weights (weightKey o.vf (byteAt o.bytes 8)) = some w →
       (s.lockStatus o.vf w.tier w.base w.len = stOk →
         ∃ t, exec (.weightRelease id) s = .next t ∧ Ended t id stOk ∧ MemoryAs t (s.blankRange o.vf w.tier w.base w.len)
           ∧ tfind t.sec.weights (weightKey o.vf (byteAt o.bytes 8)) = none
           ∧ OnlyReports { s with tierA := t.tierA, tierB := t.tierB, mem := t.mem, sec := t.sec } t)
       ∧ (s.lockStatus o.vf w.tier w.base w.len ≠ stOk →
         ∃ t, exec (.weightRelease id) s = .next t ∧ Ended t id (s.lockStatus o.vf w.tier w.base w.len) ∧ OnlyReports s t))

/-! ## Seam units -/

/-- One add reads the element, adds exactly and writes the sum: the bytes of the element hold it, no other byte of either
tier changes (R85, R86, R87). -/
def Obligations.SeamAddIsExact : Prop :=
  (∀ (s : State) (p tier k addr : Nat) (a : Addend), tier < 2 → s.unitsDistinct → s.inUnits p tier addr (kindBytes k) = true →
    s.memOk → s.clean p tier addr (kindBytes k) →
    let t := (s.seamAdd p tier k addr a).1
    (s.seamAdd p tier k addr a).2 = stOk
      ∧ t.ptBytes p tier addr (kindBytes k) = elemBytes k (elemAdd k (elemOf k (s.ptBytes p tier addr (kindBytes k))) a)
      ∧ ∀ tr x, tr < 2 → (∀ i, i < kindBytes k → ¬ (tr = tier ∧ x = s.phys p tier (addr + i))) →
        rdByte (t.memOf tr) x = rdByte (s.memOf tr) x)
  ∧ (∀ (k : Nat) (e a b : Addend), k < 5 → (elemAdd k (elemAdd k e a) b).val = (elemAdd k (elemAdd k e b) a).val)
  ∧ (∀ (e a : Addend), (elemAdd kindInt128 e a).val = signed 128 (wrap 128 (e.val + a.val))
    ∧ (elemAdd kindInt128 e a).count = min (e.count + a.count) (2 ^ 41 - 1))
  ∧ ∀ (e a : Addend), (elemAdd kindF61 e a).val = (e.val + a.val) % (2 ^ 61 - 1)

/-- SEAM_REGION opens a region with its fields, at once or, with CLEAR, after its zeroing; with RELEASE it closes one to new
addends and deletes it when its addends are in (R89).

SEAM_FINALISE closes its region to new addends; when those accepted are in, it writes the converted elements and ends
with the region CLOSED, or OPEN and zeroed with REOPEN (R90).

An addend that reaches an open region is added to its element; one that reaches a region that is closed, gone or defined
anew is discarded, counted and noted for its transfer, and no byte changes; one that meets a clearing region waits (R86, R89,
R91).

Where a round or a key set has come to lie over what a CLEAR, a FINALISE or an addend would touch since it was accepted, it
touches nothing and ends with that lock's status (R100, R170); that this is where it ends is the model's choice
(notes/assumptions/67.md). -/
def Obligations.SeamRegions : Prop :=
  ((∀ (s : State) (id : Nat) (o : Op), Waits s 0x68 id o → bit (byteAt o.bytes 27) 1 = false →
     s.regionStatus o.vf o.bytes = stOk →
     ∃ t r, exec (.seamRegion id) s = .next t ∧ t.region o.vf (le o.bytes 24 2) = some r ∧ r.phase = .opened
       ∧ r.tier = (addrAt o.bytes 8).tier ∧ r.base = (addrAt o.bytes 8).addr ∧ r.elems = le o.bytes 16 8
       ∧ r.kind = byteAt o.bytes 26 ∧ r.kTotal = le o.bytes 28 4 ∧ r.clearing = bit (byteAt o.bytes 27) 0
       ∧ (bit (byteAt o.bytes 27) 0 = false → Ended t id stOk)
       ∧ (bit (byteAt o.bytes 27) 0 = true → t.op id = some { o with phase := .running } ∧ r.clearOp = some id)
       ∧ (∀ k, k ≠ regionKey o.vf (le o.bytes 24 2) → tfind t.regions k = tfind s.regions k)
       ∧ OnlyReports { s with regions := t.regions, nextDef := s.nextDef + 1 } t)
   ∧ (∀ (s : State) (p k op : Nat) (r : Region), s.region p k = some r → r.clearing = true → r.waiting = [] →
     r.clearOp = some op →
     ∃ t, exec (.seamRegionClearDone p k) s = .next t ∧ Ended t op (s.lockStatus p r.tier r.base r.bytes)
       ∧ t.region p k = some { r with clearing := false, clearOp := none }
       ∧ (s.lockStatus p r.tier r.base r.bytes = stOk → MemoryAs t (s.zeroSpan p r.tier r.base r.bytes))
       ∧ (s.lockStatus p r.tier r.base r.bytes ≠ stOk → SameMemory s t))
   ∧ (∀ (s : State) (id : Nat) (o : Op) (r : Region), Waits s 0x68 id o → bit (byteAt o.bytes 27) 1 = true →
     s.releaseStatus o.vf o.bytes = stOk → s.region o.vf (le o.bytes 24 2) = some r → r.op = none →
     ∃ t, exec (.seamRegionRelease id) s = .next t ∧ t.op id = some { o with phase := .running }
       ∧ t.region o.vf (le o.bytes 24 2) = some { r with phase := .releasing, op := some id }
       ∧ OnlyReports { s with regions := t.regions } t)
   ∧ ∀ (s : State) (p k op : Nat) (r : Region) (errs : List LineErr), s.region p k = some r → r.clearing = false →
     r.phase = .releasing → r.op = some op →
     ∃ t, exec (.seamCloseDrainDone p k errs) s = .next t ∧ t.region p k = none ∧ Ended t op stOk
       ∧ (∀ j, j ≠ regionKey p k → tfind t.regions j = tfind s.regions j)
       ∧ OnlyReports { s.arise errs with regions := t.regions } t)
  ∧ ((∀ (s : State) (id : Nat) (o : Op) (r : Region), Waits s 0x69 id o → s.finaliseStatus o.vf o.bytes = stOk →
       s.region o.vf (le o.bytes 32 2) = some r → r.op = none →
       ∃ t, exec (.seamFinalise id) s = .next t ∧ t.op id = some { o with phase := .running }
         ∧ t.region o.vf (le o.bytes 32 2) = some { r with phase := .finalising, op := some id }
         ∧ OnlyReports { s with regions := t.regions } t)
     ∧ ∀ (s : State) (p k op : Nat) (r : Region) (o : Op) (errs : List LineErr), s.region p k = some r → r.clearing = false →
       r.phase = .finalising → r.op = some op → s.op op = some o →
       let w := (s.arise errs).finaliseWrite p r o
       (s.finaliseLock p r o.bytes = stOk →
         ∃ t, exec (.seamCloseDrainDone p k errs) s = .next t ∧ Ended t op w.2.1
           ∧ t.region p k = some { r with phase := if bit (byteAt o.bytes 35) 0 then .opened else .closed, op := none }
           ∧ MemoryAs t (if bit (byteAt o.bytes 35) 0 then w.1.zeroSpan p r.tier r.base r.bytes else w.1))
       ∧ (s.finaliseLock p r o.bytes ≠ stOk →
         ∃ t, exec (.seamCloseDrainDone p k errs) s = .next t ∧ Ended t op (s.finaliseLock p r o.bytes)
           ∧ t.region p k = some { r with phase := .closed, op := none } ∧ SameMemory s t))
  ∧ (∀ (s : State) (id e : Nat) (a : Addend) (x : Xfer) (rest : List (Nat × Addend)) (p k defNo tier base kind : Nat),
       tfind s.xfers id = some x → x.rest = (e, a) :: rest → rest ≠ [] → x.dst = .region p k defNo tier base kind →
       (∀ r, s.region p k = some r → r.defNo = defNo → r.phase = .opened → r.clearing = false →
         (s.lockStatus p tier (base + e * kindBytes kind) (kindBytes kind) = stOk →
           (s.seamAdd p tier kind (base + e * kindBytes kind) a).2 = stOk →
           ∃ t, exec (.seamAddendApply id none []) s = .next t
             ∧ tfind t.xfers id = some { x with rest := rest, done := x.done + 1 }
             ∧ MemoryAs t (s.seamAdd p tier kind (base + e * kindBytes kind) a).1 ∧ t.regions = s.regions)
         ∧ (s.lockStatus p tier (base + e * kindBytes kind) (kindBytes kind) ≠ stOk →
           ∃ t, exec (.seamAddendApply id none []) s = .next t
             ∧ tfind t.xfers id = some { x with
               rest := rest, failed := x.failed ++ [(e, false)]
               status := x.status ++ [s.lockStatus p tier (base + e * kindBytes kind) (kindBytes kind)] }
             ∧ t = { s with xfers := t.xfers }))
       ∧ (∀ (err : Option ErrClass) (errs : List LineErr),
         (∀ r, s.region p k = some r → r.defNo = defNo → r.phase ≠ .opened) →
         ∃ t, exec (.seamAddendApply id err errs) s = .next t
           ∧ tfind t.xfers id = some { x with rest := rest, late := true, failed := x.failed ++ [(e, true)] }
           ∧ OnlyReports { s.arise errs with xfers := t.xfers, fab := t.fab } t)
       ∧ ∀ (err : Option ErrClass) (errs : List LineErr) (r : Region),
         s.region p k = some r → r.defNo = defNo → r.phase = .opened → r.clearing = true →
         ∃ t, exec (.seamAddendApply id err errs) s = .next t
           ∧ tfind t.xfers id = some { x with rest := rest, held := x.held + 1 }
           ∧ t.region p k = some { r with waiting := r.waiting ++ [(id, e, a)] }
           ∧ t = { s.arise errs with xfers := t.xfers, regions := t.regions })

/-! ## Tile programs -/

/-- TILE_RUN starts its program on every Panel that it names, with the Panel's base registers, and enters the programs'
digests in the partition's log; the other Panels stay (R54, R55, R340). It waits while a Panel that it names is not free, ends
with the status of the first check that fails, and with ST_SEC_LOG_FULL where the log has no room (R65, R340).

A TILE_RUN ends when each of its Panels has retired its last command or stopped: with the merged statuses, its Panels
free (R54, R65, R399). -/
def Obligations.TileRunStartsAndEnds : Prop :=
  (∀ (s : State) (id : Nat) (o : Op), Waits s 0x10 id o →
     let prog := addrAt o.bytes 8
     let par := addrAt o.bytes 32
     let n := le o.bytes 16 4
     let entry := fun (i k : Nat) => s.paramEntry o.vf o i k
     let start := fun (i k : Nat) => progAddr o (entry i k)
     let digs := o.panels.mapIdx (fun i k => sha384 (s.ptBytes o.vf prog.tier (start i k) (8 * n)))
     let fresh := digs.eraseDups.filter (fun d => !(s.part o.vf).log.contains d)
     (∀ errs, s.tileRunStatus o.vf o ≠ stOk → ∃ t, exec (.tileRun id errs) s = .next t ∧ Ended t id (s.tileRunStatus o.vf o)
       ∧ OnlyReports (s.arise errs) t)
     ∧ (∀ errs, s.tileRunStatus o.vf o = stOk → (∃ k ∈ o.panels, s.panelBusy id k = true) →
       exec (.tileRun id errs) s = .next (s.arise errs))
     ∧ (s.tileRunStatus o.vf o = stOk → o.panels ≠ [] → (∀ k ∈ o.panels, s.panelBusy id k = false) →
       (∀ i k, o.panels[i]? = some k → zeroAt (entry i k) 24 8 = true
         ∧ (par.space ≠ 0 → s.clean o.vf par.tier (s.paramAddr o i k) 32)
         ∧ s.clean o.vf prog.tier (start i k) (8 * n) ∧ s.accStatus o.vf prog [(start i k, 8 * n)] false = stOk) →
       ((fresh = [] ∨ (s.part o.vf).log.length + fresh.length ≤ 4096) →
         ∃ t, exec (.tileRun id []) s = .next t ∧ t.op id = some { o with phase := .running }
           ∧ (∀ d ∈ digs, (t.part o.vf).log.contains d = true) ∧ SameMemory s t
           ∧ (∀ i k, o.panels[i]? = some k → (t.panel k).run = some id ∧ (t.panel k).pc = 0 ∧ (t.panel k).prog.length = n
             ∧ (t.panel k).prog = progWords (s.ptBytes o.vf prog.tier (start i k) (8 * n))
             ∧ (t.panel k).bases = [le (entry i k) 0 8, le (entry i k) 8 8, le (entry i k) 16 8]
             ∧ (t.panel k).set0 = (s.panel k).set0 ∧ (t.panel k).set1 = (s.panel k).set1
             ∧ (t.panel k).store = (s.panel k).store)
           ∧ ∀ k, k ∉ o.panels → t.panel k = s.panel k)
       ∧ (fresh ≠ [] → 4096 < (s.part o.vf).log.length + fresh.length →
         ∃ t, exec (.tileRun id []) s = .next t ∧ Ended t id stSecLogFull ∧ OnlyReports s t)))
  ∧ (∀ (s : State) (id : Nat) (o : Op), s.op id = some o → o.phase = .running →
       (∀ k ∈ o.panels, (s.panel k).run = some id ∧ (s.panel k).done = true) →
       let t := s.settleRun id
       (∀ k ∈ o.panels, t.panel k = (s.panel k).free) ∧ (∀ k, k ∉ o.panels → t.panel k = s.panel k)
         ∧ Ended t id (mergeStatus (o.panels.flatMap (fun k => (s.panel k).note ++ (s.panel k).stopped.toList.map (·.1))))
         ∧ ((∀ k ∈ o.panels, (s.panel k).note = [] ∧ (s.panel k).stopped = none) → Ended t id stOk)
         ∧ OnlyReports { s with panels := t.panels } t)

/-- LOAD_ACT loads an activation set from memory, or the chunk of S on the seed path, and is in flight; the other set stays
(R48, R58, R137, R138).

STREAM_W sets a weight stream up from memory, or from the Matrix Loom for an expansion, whose words it counts (R58,
R138, R139). -/
def Obligations.TileOperandsLoad : Prop :=
  ((∀ (s : State) (n p : Nat) (w : DWord) (ws : List DWord), NextTile s n 1 p false w ws → loadActFields w.toNat = true →
     fmtaStatus (field w.toNat 0 8) true = stOk → field w.toNat 52 2 = 0 → addrWordStatus ((cmdArgs w ws).drop 1) = stOk →
     let v := w.toNat
     let x := s.panel n
     let f := fmtOf (field v 0 8)
     let a := x.addr ((cmdArgs w ws).getD 1 0)
     let b := x.addr ((cmdArgs w ws).getD 2 0)
     let nc := field v 29 5 + 1
     let rows := ceilDiv (field v 46 6 + 1) (2 ^ field v 44 2) * nc
     let ra := rowsOf a rows (packedBytes f (field v 34 10))
     let rb := if bsOf (field v 0 8) then rowsOf b rows (ceilDiv (field v 34 10) 32) else []
     s.accStatus p a ra false = stOk → (bsOf (field v 0 8) = true → s.accStatus p b rb false = stOk) →
     x.flies 1 = false → (∀ y ∈ x.passes, y.set = field v 54 1 → y.done = true) →
     s.missing p n (pagesOf a ra ++ (if bsOf (field v 0 8) then pagesOf b rb else [])) = none →
     s.readable p a ra → s.readable p b rb →
     ∃ t, exec (.loadAct n []) s = .next t ∧ (t.panel n).pc = x.pc + (cmdArgs w ws).length ∧ SameMemory s t
       ∧ (t.panel n).flies 1 = true ∧ (t.panel n).setOf (1 - field v 54 1) = x.setOf (1 - field v 54 1)
       ∧ ((t.panel n).setOf (field v 54 1)).ready = false
       ∧ ((t.panel n).setOf (field v 54 1)).narr = field v 46 6 + 1 ∧ ((t.panel n).setOf (field v 54 1)).ncol = nc
       ∧ ((t.panel n).setOf (field v 54 1)).mat.klen = field v 34 10
       ∧ ((t.panel n).setOf (field v 54 1)).mat.fmta = field v 0 8
       ∧ (a.space ≠ 0 → x.unsynced = [] → f ≠ fmtF61 → ((t.panel n).setOf (field v 54 1)).mat.rows =
         ra.mapIdx (fun i r => maskRow f (field v 44 2) (field v 46 6 + 1) (i / nc)
           ((List.range (field v 34 10)).map (elemAt f (s.ptBytes p a.tier r.1 r.2))))))
   ∧ ∀ (s : State) (n p : Nat) (w : DWord) (ws : List DWord) (sw : Sweep) (rest : List Sweep) (errs : List LineErr),
     NextTile s n 1 p true w ws → loadActFields w.toNat = true → fmtaStatus (field w.toNat 0 8) true = stOk →
     (s.panel n).sweeps = sw :: rest → (s.panel n).flies 1 = false →
     (∀ y ∈ (s.panel n).passes, y.set = field w.toNat 54 1 → y.done = true) →
     ∃ t, exec (.loadAct n errs) s = .next t ∧ (t.panel n).pc = (s.panel n).pc + (cmdArgs w ws).length
       ∧ ((t.panel n).setOf (field w.toNat 54 1)).mat.rows =
         List.replicate 64 (((s.round sw.round).seed.drop (64 * ((s.panel n).pc / 6))).take 64)
       ∧ t = { s.arise errs with panels := t.panels })
  ∧ ((∀ (s : State) (n p : Nat) (w : DWord) (ws : List DWord), NextTile s n 2 p false w ws → streamFields w.toNat = true →
       fmtaStatus (field w.toNat 0 8) true = stOk → field w.toNat 53 2 = 0 → addrWordStatus ((cmdArgs w ws).drop 1) = stOk →
       let v := w.toNat
       let x := s.panel n
       let f := fmtOf (field v 0 8)
       let a := x.addr ((cmdArgs w ws).getD 1 0)
       let b := x.addr ((cmdArgs w ws).getD 2 0)
       let ra := rowsOf a (64 * 2 ^ field v 32 2) (packedBytes f (field v 42 10))
       let rb := if bsOf (field v 0 8) then rowsOf b (64 * 2 ^ field v 32 2) (ceilDiv (field v 42 10) 32) else []
       s.accStatus p a ra false = stOk → (bsOf (field v 0 8) = true → s.accStatus p b rb false = stOk) →
       (∀ y ∈ x.passes, y.done = true) →
       s.missing p n (pagesOf a ra ++ (if bsOf (field v 0 8) then pagesOf b rb else [])) = none →
       s.readable p a ra → s.readable p b rb →
       ∃ t, exec (.streamW n []) s = .next t ∧ SameMemory s t ∧ (x.goesOn (cmdArgs w ws).length →
         ∃ str, (t.panel n).streams = str :: x.streams ∧ str.loom = false ∧ str.msel = field v 32 2
         ∧ str.mat.klen = field v 42 10 ∧ str.mat.fmta = field v 0 8 ∧ (t.panel n).pc = x.pc + (cmdArgs w ws).length
         ∧ (a.space ≠ 0 → x.unsynced = [] → f ≠ fmtF61 → str.mat.rows =
           ra.map (fun r => (List.range (field v 42 10)).map (elemAt f (s.ptBytes p a.tier r.1 r.2))))))
     ∧ ∀ (s : State) (n p : Nat) (w : DWord) (ws : List DWord) (sw : Sweep) (rest : List Sweep) (errs : List LineErr),
       NextTile s n 2 p true w ws → streamFields w.toNat = true → fmtaStatus (field w.toNat 0 8) true = stOk →
       (s.panel n).sweeps = sw :: rest → (∀ y ∈ (s.panel n).passes, y.done = true) → (s.panel n).run = none →
       s.loom.failed = false → s.loomTurn sw.round = true →
       ∃ t str, exec (.streamW n errs) s = .next t ∧ (t.panel n).streams = str :: (s.panel n).streams ∧ str.loom = true
         ∧ str.blocks = sw.blocks ∧ str.kchunk = (s.panel n).pc / 6 ∧ t.loom.busy = true ∧ t.loom.round = sw.round
         ∧ t.loom.words = (if s.loom.holds sw.round then s.loom.words else 0)
           + 64 * (sw.blocks.map (fun (b : Nat × Nat) => min 512 ((s.round sw.round).pol.vlen - 512 * b.2))).sum
         ∧ t = { s.arise errs with panels := t.panels, loom := t.loom })

/-- PASS sets the most recent stream that no PASS has consumed against a set that is ready, once the pass before it is over;
without a stream it stops the Panel; with the end of its last lane value the pass is over (R50, R60).

PROMOTE moves the lanes of the finished pass into its tile: entry by entry the step of R77, from zero with INIT, onto the
tile's entry without; tiles that overlapped it are gone, the pass is over (R60, R66). An integer lane is the exact sum of
products, a ring or field lane the sum modulo its modulus; an integer entry saturates at 48 bits. The last PROMOTE of a sweep
of a mask expansion sets its adds out and zeroes the Panel's sets and tiles, and the last sweep's the seed (R138, R143). -/
def Obligations.PassesUpdateTheirTiles : Prop :=
  ((∀ (s : State) (n p : Nat) (own : Bool) (w : DWord) (ws : List DWord) (str : Stream) (others : List Stream),
     NextTile s n 3 p own w ws →
     (s.panel n).streams = str :: others → ((s.panel n).setOf (field w.toNat 54 1)).mat.klen = str.mat.klen →
     pairOk (fmtOf str.mat.fmta) (fmtOf ((s.panel n).setOf (field w.toNat 54 1)).mat.fmta) = true →
     ((s.panel n).setOf (field w.toNat 54 1)).ready = true → (∀ y ∈ (s.panel n).passes, y.done = true) →
     ∃ t y, exec (.pass n none) s = .next t ∧ (t.panel n).passes = [y] ∧ y.done = false ∧ y.set = field w.toNat 54 1
       ∧ y.tile = field w.toNat 55 5 ∧ y.stream = str ∧ y.act = (s.panel n).setOf (field w.toNat 54 1)
       ∧ (t.panel n).streams = others ∧ (t.panel n).pass = some (field w.toNat 55 5) ∧ (t.panel n).pc = (s.panel n).pc + 1
       ∧ (t.panel n).set0 = (s.panel n).set0 ∧ (t.panel n).set1 = (s.panel n).set1 ∧ (t.panel n).tiles = (s.panel n).tiles
       ∧ SameMemory s t)
   ∧ (∀ (s : State) (n p : Nat) (own : Bool) (w : DWord) (ws : List DWord) (err : Option PassErr) (id : Nat) (o : Op),
     NextTile s n 3 p own w ws → (s.panel n).streams = [] → (s.panel n).run = some id → s.op id = some o → o.phase = .running →
     o.panels = [n] → (s.panel n).stopped = none → (s.panel n).inflight = [] → (s.panel n).note = [] →
     (∀ y ∈ (s.panel n).passes, y.done = true) →
     ∃ t, exec (.pass n err) s = .next t ∧ Ended t id stTileSequence ∧ t.panel n = (s.panel n).free)
   ∧ ∀ (s : State) (n : Nat), s.isRun = true → (s.panel n).passes.any (fun y => !y.done) = true →
     ∃ t, exec (.passDone n) s = .next t ∧ SameMemory s t
       ∧ ((s.panel n).ended = false →
         t.panel n = { s.panel n with passes := (s.panel n).passes.map (fun y => { y with done := true }) })
       ∧ ∀ id o, (s.panel n).ended = true → (s.panel n).run = some id → s.op id = some o → o.phase = .running →
         o.panels = [n] → (s.panel n).inflight = [] → (s.panel n).note = [] → (s.panel n).stopped = none →
         Ended t id stOk ∧ (t.panel n).run = none)
  ∧ ((∀ (s : State) (n p : Nat) (own : Bool) (w : DWord) (ws : List DWord) (y : PassRec), NextTile s n 4 p own w ws →
       let v := w.toNat
       let x := s.panel n
       let f := fmtOf y.act.mat.fmta
       x.passes.getLast? = some y → x.pass = some (field v 55 5) → y.tile = field v 55 5 → promoteStatus x v y = stOk →
       y.done = true → tileBusy x (field v 55 5) (tileSlots f (field v 52 2) y.stream.msel) = false →
       (own = true → ∀ sw l, x.sweeps = sw :: l → x.pc + 1 ≠ 6 * ((s.round sw.round).pol.lambda / 64)) →
       ∃ t, exec (.promote n) s = .next t ∧ SameMemory s t ∧ ((own = false → x.goesOn 1) →
         ∃ u, u ∈ (t.panel n).tiles ∧ u.slot = field v 55 5 ∧ u.nslots = tileSlots f (field v 52 2) y.stream.msel
           ∧ u.resDone = false ∧ u.ending = false
           ∧ u.fmt = ⟨f, fmtOf y.stream.mat.fmta, field v 52 2, y.stream.msel, is4bit f⟩
           ∧ (∀ i r m e, (s.lanesOf n y)[i]? = some r → r[m]? = some e →
             (bit v 54 = true → (u.entries.getD i []).getD m 0 = (entryStep f (field v 52 2) true 0 e.val).1)
             ∧ ∀ z es c, bit v 54 = false → x.tiles.find? (fun (t : Tile) => t.slot == field v 55 5) = some z →
               z.entries[i]? = some es → es[m]? = some c →
               (u.entries.getD i []).getD m 0 = (entryStep f (field v 52 2) false c e.val).1)
           ∧ (bit v 54 = true → u.k = y.act.mat.klen)
           ∧ (∀ z, bit v 54 = false → x.tiles.find? (fun (t : Tile) => t.slot == field v 55 5) = some z →
             u.k = z.k + y.act.mat.klen)
           ∧ (∀ z ∈ (t.panel n).tiles, z = u ∨ (z ∈ x.tiles ∧ slotsHit z u.slot u.nslots = false))
           ∧ (∀ z ∈ x.tiles, slotsHit z u.slot u.nslots = false → z ∈ (t.panel n).tiles)
           ∧ (t.panel n).passes = [] ∧ (t.panel n).pc = x.pc + 1))
     ∧ (∀ (s : State) (n p : Nat) (w : DWord) (ws : List DWord) (y : PassRec) (sw : Sweep) (rest : List Sweep),
       NextTile s n 4 p true w ws → (s.panel n).passes.getLast? = some y → (s.panel n).pass = some (field w.toNat 55 5) →
       y.tile = field w.toNat 55 5 → promoteStatus (s.panel n) w.toNat y = stOk → y.done = true →
       tileBusy (s.panel n) (field w.toNat 55 5) (tileSlots (fmtOf y.act.mat.fmta) (field w.toNat 52 2) y.stream.msel) = false →
       (s.panel n).sweeps = sw :: rest → (s.panel n).pc + 1 = 6 * ((s.round sw.round).pol.lambda / 64) →
       ∃ t z, exec (.promote n) s = .next t ∧ tfind t.xfers s.nextX = some z ∧ z.src = .expand sw.round
         ∧ z.dst = .acc sw.round ∧ (∀ e ∈ z.rest, e.1 < (s.round sw.round).pol.vlen)
         ∧ (t.panel n).sweeps = rest ∧ (t.panel n).set0 = actInit ∧ (t.panel n).set1 = actInit ∧ (t.panel n).tiles = []
         ∧ (t.hasSweeps sw.round = false → (s.round sw.round).blocks = [] → (t.round sw.round).seed = []) ∧ SameMemory s t)
     ∧ (∀ (s : State) (n i m : Nat) (y : PassRec) (a b : List Nat), y.stream.loom = false → bsOf y.act.mat.fmta = false →
       bsOf y.stream.mat.fmta = false → y.act.mat.rows[i]? = some a → y.stream.mat.rows[m]? = some b →
       let f := fmtOf y.act.mat.fmta
       ∃ r e, (s.lanesOf n y)[i]? = some r ∧ r[m]? = some e
         ∧ (isInt f = true → e.val =
           .int (List.zipWith (fun x z => signed (fmtBits f) x * signed (fmtBits (fmtOf y.stream.mat.fmta)) z) a b).sum)
         ∧ (isRing f = true → e.val = .ring ((List.zipWith (· * ·) a b).sum % 2 ^ fmtBits f))
         ∧ (f = fmtF61 → e.val = .ring ((List.zipWith (· * ·) a b).sum % (2 ^ 61 - 1))))
     ∧ (∀ (f ent e : Nat) (v : Int), -(2 ^ 47) ≤ signed 64 e + v → signed 64 e + v < 2 ^ 47 →
       entryStep f ent false e (.int v) = (wrap 64 (signed 64 e + v), false))
     ∧ (∀ (f ent e : Nat) (v : Int), 2 ^ 47 ≤ signed 64 e + v →
       entryStep f ent false e (.int v) = (2 ^ 47 - 1, true))
     ∧ (∀ (f ent e : Nat) (v : Int), signed 64 e + v < -(2 ^ 47) →
       entryStep f ent false e (.int v) = (wrap 64 (-(2 ^ 47)), true))
     ∧ ∀ (ent e v : Nat), entryStep fmtRing32 ent false e (.ring v) = ((e + v) % 2 ^ 32, false)
       ∧ entryStep fmtRing64 ent false e (.ring v) = ((e + v) % 2 ^ 64, false)
       ∧ entryStep fmtF61 ent false e (.ring v) = ((e + v) % (2 ^ 61 - 1), false))

/-- EPILOGUE computes the results of its tile, each entry through step, bias, function and conversion to the OUT format, and
is in flight; the entries stay (R61, R63). STORE writes the results row by row and is in flight (R62, R63).

The write of a tile's rows touches nothing else: the other bytes of both tiers and of the store stay; a row that meets no
LASTING error and no poison reads back as it was written (R62, R201). -/
def Obligations.EpilogueAndStore : Prop :=
  ((∀ (s : State) (n p : Nat) (own : Bool) (w : DWord) (ws : List DWord) (u : Tile), NextTile s n 5 p own w ws →
     let v := w.toNat
     let x := s.panel n
     let f := fmtOf (field v 0 8)
     let word := (cmdArgs w ws).getD 1 0
     let a := x.addr ((cmdArgs w ws).getD 2 0)
     let k := rowsM u.fmt.msel
     let rows := [(a.addr, 4 * k)]
     let bias := if bit v 50 then (List.range k).map (fun i => le (s.ptBytes p a.tier a.addr (4 * k)) (4 * i) 4) else []
     x.tiles.find? (fun (t : Tile) => slotsHit t (field v 55 5) 1) = some u → u.slot = field v 55 5 →
     epilogueFields v (field word 32 32) u = true → fmtaStatus (field v 0 8) false = stOk →
     convOk (if isRing u.fmt.fmtA ∨ u.fmt.fmtA = fmtF61 then u.fmt.fmtA else fmtFp32) f = true →
     u.ending = false → x.flies 5 = false →
     (bit v 50 = true → addrWordStatus ((cmdArgs w ws).drop 2) = stOk ∧ s.accStatus p a rows false = stOk
       ∧ s.missing p n (pagesOf a rows) = none ∧ s.readable p a rows) →
     ∃ t z, exec (.epilogue n []) s = .next t ∧ z ∈ (t.panel n).tiles ∧ z.slot = u.slot ∧ z.entries = u.entries
       ∧ z.resDone = true ∧ z.resFmta = field v 0 8 ∧ (t.panel n).flies 5 = true
       ∧ (t.panel n).pc = x.pc + (cmdArgs w ws).length ∧ SameMemory s t
       ∧ (rndOf (field v 0 8) ≠ 2 → bsOf (field v 0 8) = false → (bit v 50 = true → a.space ≠ 0 ∧ x.unsynced = []) →
         (∀ es ∈ u.entries, es.length = k) →
         ∀ i es m e, u.entries[i]? = some es → es[m]? = some e → (z.results.getD i []).getD m 0 =
           (convert f (rndOf (field v 0 8)) 0 (epilogueVal u v (field word 32 32) (field word 0 32) bias m e)).code))
   ∧ ∀ (s : State) (n p : Nat) (own : Bool) (w : DWord) (ws : List DWord) (u : Tile), NextTile s n 6 p own w ws →
     let v := w.toNat
     let x := s.panel n
     let a := x.addr ((cmdArgs w ws).getD 1 0)
     let f := fmtOf u.resFmta
     let rows := rowsOf a u.entries.length (packedBytes f (rowsM u.fmt.msel))
     let data := List.zipWith (fun (r : Nat × Nat) cs => (r.1, packElems f cs)) rows u.results
     addrWordStatus ((cmdArgs w ws).drop 1) = stOk → x.tiles.find? (fun (t : Tile) => slotsHit t (field v 55 5) 1) = some u →
     u.slot = field v 55 5 → u.resDone = true → endBusy x u = false → s.accStatus p a rows true = stOk →
     s.missing p n (pagesOf a rows) = none →
     let m := State.tileWrite p n a data (s.usePages p n (pagesOf a rows) true, [])
     m.2 = [] →
     ∃ t, exec (.store n) s = .next t ∧ MemoryAs t m.1 ∧ (t.panel n).store = (m.1.panel n).store
       ∧ (t.panel n).flies 6 = true ∧ (t.panel n).pc = x.pc + (cmdArgs w ws).length)
  ∧ (∀ (s : State) (p n : Nat) (a : AddrWord) (l : List (Nat × Bytes)),
       let t := (State.tileWrite p n a l (s, [])).1
       (a.space ≠ 0 → (∀ k, (t.panel k).store = (s.panel k).store)
         ∧ ∀ tr x, tr < 2 → (∀ e ∈ l, ∀ i, i < e.2.length → ¬ ((tr = 0 ↔ a.tier = 0) ∧ x = s.phys p a.tier (e.1 + i))) →
           rdByte (t.memOf tr) x = rdByte (s.memOf tr) x)
       ∧ (a.space = 0 → s.spills p = false → SameMemory s t
         ∧ ∀ x, (∀ e ∈ l, ∀ i, i < e.2.length → x ≠ e.1 + i) → rdByte (t.panel n).store x = rdByte (s.panel n).store x))
  ∧ (∀ (s : State) (p n lo : Nat) (a : AddrWord) (bs : Bytes),
       let m := State.tileWrite p n a [(lo, bs)] (s, [])
       (a.space ≠ 0 → a.tier < 2 → s.memOk → s.unitsDistinct → s.inUnits p a.tier lo bs.length = true →
         s.clean p a.tier lo bs.length → m.2 = [] ∧ ∀ i, i < bs.length → m.1.ptByte p a.tier (lo + i) = bs.getD i 0)
       ∧ (a.space = 0 → s.spills p = false → Memory.wf (s.panel n).store = true →
         m.2 = [] ∧ ∀ i, i < bs.length → rdByte (m.1.panel n).store (lo + i) = bs.getD i 0))

/-- REDUCE_SEAM sets one addend for each entry of its tile out, to element OFFSET + n × STRIDE + m, and is in flight until
all are decided (R62, R88).

SYNC waits for the classes of WAIT, signals, and goes on; with BARRIER it waits until every Panel of the run has
reached its barrier (R63, R64).

A LOAD_ACT, EPILOGUE or STORE in flight retires: its set is ready, its tile ends (R63). A page for which a Panel stalls
arrives from the spill area; the least recently used page that nothing uses makes room, written back when it is dirty
(R52). -/
def Obligations.TileAddsSyncAndRetirement : Prop :=
  (∀ (s : State) (n p : Nat) (own : Bool) (w : DWord) (ws : List DWord) (u : Tile) (r : Region), NextTile s n 7 p own w ws →
     let v := w.toNat
     let x := s.panel n
     let region := field ((cmdArgs w ws).getD 1 0) 48 16
     let off := field ((cmdArgs w ws).getD 1 0) 0 48
     let stride := field ((cmdArgs w ws).getD 2 0) 0 40
     field ((cmdArgs w ws).getD 2 0) 40 24 = 0 → x.tiles.find? (fun (t : Tile) => slotsHit t (field v 55 5) 1) = some u →
     u.slot = field v 55 5 → u.resDone = false → endBusy x u = false → s.region p region = some r → r.kind = tileKind u →
     (∀ i es, u.entries[i]? = some es → ∀ m, m < es.length → off + i * stride + m < r.elems) →
     s.lockStatus p r.tier r.base r.bytes = stOk →
     ∃ t z, exec (.reduceSeam n) s = .next t ∧ tfind t.xfers s.nextX = some z ∧ t.nextX = s.nextX + 1
       ∧ z.src = .panel n x.pc ∧ z.dst = .region p region r.defNo r.tier r.base r.kind
       ∧ z.rest.map (·.1) = (u.entries.mapIdx (fun i es => (List.range es.length).map (off + i * stride + ·))).flatten
       ∧ (t.panel n).flies 7 = true ∧ (t.panel n).pc = x.pc + 3 ∧ SameMemory s t)
  ∧ ((∀ (s : State) (n p : Nat) (own : Bool) (w : DWord) (ws : List DWord), NextTile s n 8 p own w ws → field w.toNat 55 5 = 0 →
       (waitOver (s.panel n) (field w.toNat 51 4) = false → exec (.sync n) s = .next s)
       ∧ (waitOver (s.panel n) (field w.toNat 51 4) = true → bit w.toNat 50 = false →
         ∃ t, exec (.sync n) s = .next t ∧ SameMemory s t
           ∧ ((s.panel n).goesOn 1 → (t.panel n).pc = (s.panel n).pc + 1
             ∧ (t.panel n).unsynced = (if bit w.toNat 52 then [] else (s.panel n).unsynced))
           ∧ (bit w.toNat 49 = true → tget 0 t.evSeq (srcPanel n) = (tget 0 s.evSeq (srcPanel n) + 1) % 2 ^ 32))
       ∧ (waitOver (s.panel n) (field w.toNat 51 4) = true → bit w.toNat 50 = true → s.runStopped n = false →
         exec (.sync n) s = .next (s.setPanel n { s.panel n with atBarrier := true })))
     ∧ ∀ (s : State) (id : Nat) (o : Op) (b : Nat), s.op id = some o → o.opcode = 0x10 → o.phase = .running →
       (∀ k ∈ o.panels, (s.panel k).run = some id ∧ (s.panel k).stopped = none ∧ (s.panel k).atBarrier = true
         ∧ (s.panel k).barriers = b ∧ (s.panel k).goesOn 1 ∧ (s.panel k).ended = false
         ∧ bit ((s.panel k).prog.getD (s.panel k).pc 0).toNat 50 = true) →
       ∃ t, exec (.syncBarrierRelease id) s = .next t ∧ (∀ k, k ∉ o.panels → t.panel k = s.panel k) ∧ SameMemory s t
         ∧ ∀ k ∈ o.panels, (t.panel k).atBarrier = false ∧ (t.panel k).barriers = b + 1 ∧ (t.panel k).pc = (s.panel k).pc + 1)
  ∧ ((∀ (s : State) (n word : Nat) (i : InFlight), s.isRun = true →
       (s.panel n).inflight.find? (fun (j : InFlight) => j.word == word && j.opc != 7) = some i →
       ∃ t, exec (.tileCommandRetire n word) s = .next t ∧ i ∉ (t.panel n).inflight ∧ SameMemory s t
         ∧ (i.opc = 1 → ((t.panel n).setOf i.key).ready = true)
         ∧ (i.opc = 6 → ∀ p, s.panelPart n = some p → ∀ u ∈ (s.panel n).tiles, u.slot = i.key → u.ending = true →
           ∀ z ∈ (t.panel n).tiles, z.slot ≠ i.key))
     ∧ (∀ (s : State) (n p pg : Nat), (s.panel n).stall = some pg → s.panelPart n = some p → (s.panel n).pages.length < 352 →
       s.clean p 0 (s.spillAddr p n (pg * 65536)) 65536 → Memory.wf (s.panel n).store = true →
       ∃ t, exec (.spillPageFetchDone n []) s = .next t ∧ (t.panel n).stall = none ∧ (t.panel n).resident pg = true
         ∧ (∀ i, i < 65536 → rdByte (t.panel n).store (pg * 65536 + i) = s.ptByte p 0 (s.spillAddr p n (pg * 65536) + i))
         ∧ SameMemory s t)
     ∧ ∀ (s : State) (n p pg : Nat) (e : StorePage), (s.panel n).stall = some pg → s.panelPart n = some p →
       352 ≤ (s.panel n).pages.length → victim (s.panel n) = some e → e.page ≠ pg →
       let w := (s.memWrite p 0 (s.spillAddr p n (e.page * 65536)) (rdBytes (s.panel n).store (e.page * 65536) 65536)).1
       (s.evict p n e).clean p 0 (s.spillAddr p n (pg * 65536)) 65536 →
       ∃ t, exec (.spillPageFetchDone n []) s = .next t ∧ (t.panel n).resident pg = true ∧ (t.panel n).resident e.page = false
         ∧ (e.dirty = true → MemoryAs t w) ∧ (e.dirty = false → SameMemory s t))

/-! ## Aggregation rounds -/

/-- ROUND_OPEN makes its round CREATED with its policy, areas, matrix seed and key pair, and sets its four marks; a failing
row of R118 ends it with that row's status (R97, R98, R99, R117, R118). The round's keys are open values.

The end of zeroing opens the round, with both areas and the alive table zeroed (R102, R117, R151); ROUND_ROSTER gives it
its committee (R126, R131).

ROUND_ABORT aborts a round before its RELEASE, destroys its secrets and leaves its areas to the background scrub, which blanks
them; ROUND_STATUS writes its block; ROUND_FREE scrubs both areas and leaves the slot IDLE, its marks gone (R102, R114, R115,
R117, R119, R310). -/
def Obligations.RoundsOpenAbortAndFree : Prop :=
  (∀ (s : State) (id : Nat) (o : Op) (policy : Bytes), Waits s 0x30 id o →
     let r := o.round
     (s.openStatus r o.bytes ≠ stOk → ∃ t, exec (.roundOpen id policy) s = .next t
       ∧ Ended t id (s.openStatus r o.bytes) ∧ OnlyReports s t)
     ∧ ∀ pol, s.openStatus r o.bytes = stOk → s.reachable o.fn = true → policyOf (slice policy 0 128) = some pol →
       s.policyStatus r o.aux { roundInit with
         openOp := some id, policy := slice policy 0 128, pol := pol, accBase := (addrAt o.bytes 24).addr
         mapBase := (addrAt o.bytes 32).addr } (slice policy 0 128) = stOk →
       ∃ t, exec (.roundOpen id policy) s = .next t ∧ (t.round r).st = .created ∧ (t.round r).pol = pol
         ∧ (t.round r).accBase = (addrAt o.bytes 24).addr ∧ (t.round r).mapBase = (addrAt o.bytes 32).addr
         ∧ (t.round r).openOp = some id ∧ t.op id = some { o with phase := .running } ∧ (t.slot (104 + r)).usable engShc (r / 2) = true
         ∧ (t.round r).mseed = (s.drbgBytes (r / 2) 32).1
         ∧ (∃ d, (t.slot (104 + r)).key = beBytes 48 d ∧ (t.round r).pub = ecPublic d)
         ∧ (∀ i m, s.mark i = some m → t.mark i = some m)
         ∧ (∀ a time, (a, time) ∈ [(1, pol.tAdmit), (2, pol.tComplete), (3, pol.tSeal), (4, pol.tRelease)] →
           ∃ i m, s.mark i = none ∧ t.mark i = some m ∧ m.action = a ∧ m.time = time ∧ m.part = r / 2 ∧ m.slot = r % 2
             ∧ m.st = .set)
         ∧ (∀ k, k ≠ r → t.round k = s.round k) ∧ SameMemory s t)
  ∧ ((∀ (s : State) (p slot op : Nat), slot < 2 → (s.round (2 * p + slot)).st = .created →
       (s.round (2 * p + slot)).openOp = some op →
       let x := s.round (2 * p + slot)
       ∃ t, exec (.roundZeroingDone p slot) s = .next t
         ∧ t.round (2 * p + slot) = { x with st := .opened, openOp := none, wasOpen := true }
         ∧ Ended t op stOk
         ∧ MemoryAs t (((s.zeroRange p 0 x.accBase x.pol.accBytes).zeroRange p 1 x.mapBase x.pol.mapBytes).zeroRange p 1
           (s.aliveBase (2 * p + slot)) (2 ^ 25))
         ∧ OnlyReports { s with rounds := t.rounds, tierA := t.tierA, tierB := t.tierB, mem := t.mem } t)
     ∧ ∀ (s : State) (id : Nat) (o : Op) (roster : Bytes), Waits s 0x35 id o →
       let x := s.round o.round
       2 ≤ x.st.code → x.st.code ≤ 5 → x.roster = none → le o.bytes 24 4 = 100 * x.pol.committee → s.reachable o.fn = true →
       (rosterOk x.pol (slice roster 0 (100 * x.pol.committee)) = true →
         ∃ t, exec (.roundRoster id roster) s = .next t ∧ Ended t id stOk
           ∧ t.round o.round = { x with roster := some (slice roster 0 (100 * x.pol.committee)) }
           ∧ OnlyReports { s with rounds := t.rounds } t)
       ∧ (rosterOk x.pol (slice roster 0 (100 * x.pol.committee)) = false →
         ∃ t, exec (.roundRoster id roster) s = .next t ∧ Ended t id stShcRoster ∧ OnlyReports s t))
  ∧ ((∀ (s : State) (id : Nat) (o : Op), Waits s 0x31 id o → (s.round o.round).st.running = true →
       o.aux < (s.round o.round).pol.tRelease →
       ∃ t, exec (.roundAbort id) s = .next t ∧ Ended t id stOk ∧ (t.round o.round).st = .aborted
         ∧ (t.round o.round).cause = causeHostAbort ∧ (t.round o.round).seed = [] ∧ (t.round o.round).pub = zeros 97
         ∧ (t.slot (104 + o.round)).valid = false ∧ (∀ e ∈ t.xfers, e.2.dst ≠ .acc o.round) ∧ (t.round o.round).scrub = true
         ∧ (∀ k, k ≠ o.round → t.round k = s.round k) ∧ SameMemory s t)
     ∧ (∀ (s : State) (id : Nat) (o : Op), Waits s 0x32 id o → (s.round o.round).st ≠ .idle →
       listOk (byteAt o.bytes 9) (s.round o.round).st = true → s.reachable o.fn = true →
       (byteAt o.bytes 9 ≠ 0 →
         s.clean (o.round / 2) 1 (s.round o.round).mapBase (s.round o.round).pol.tableBytes) →
       let map := if byteAt o.bytes 9 = 0 then [] else if byteAt o.bytes 9 = 1 then s.incompleteMap o.round else s.admittedMap o.round
       ∃ t l, exec (.roundStatus id) s = .next t ∧ Ended t id stOk ∧ OnlyReports s t
         ∧ t.out = s.out ++ .hostWrite o.fn (le o.bytes 16 8) ((s.round o.round).statusBlock ++ map) :: l)
     ∧ (∀ (s : State) (id : Nat) (o : Op), Waits s 0x33 id o →
       ((s.round o.round).st = .released ∨ (s.round o.round).st = .aborted) → (s.round o.round).freeing = false →
       exec (.roundFree id) s = .next ((s.setRound o.round { s.round o.round with freeing := true, freeOp := some id }).setOp id
         { o with phase := .running }))
     ∧ (∀ (s : State) (r : Nat), (s.round r).scrub = true →
       let x := s.round r
       (s.scrubRound r).round r = { x with scrub := false } ∧ (∀ k, k ≠ r → (s.scrubRound r).round k = s.round k)
         ∧ MemoryAs (s.scrubRound r)
           ((s.blankRange (r / 2) 0 x.accBase x.pol.accBytes).blankRange (r / 2) 1 x.mapBase x.pol.mapBytes))
     ∧ ∀ (s : State) (p slot op : Nat), slot < 2 → (s.round (2 * p + slot)).freeing = true →
       (s.round (2 * p + slot)).freeOp = some op →
       let x := s.round (2 * p + slot)
       ∃ t, exec (.roundFreeScrubDone p slot) s = .next t ∧ t.round (2 * p + slot) = roundInit ∧ Ended t op stOk
         ∧ MemoryAs t ((s.blankRange p 0 x.accBase x.pol.accBytes).blankRange p 1 x.mapBase x.pol.mapBytes)
         ∧ ∀ e ∈ t.mrd.marks, e ∈ s.mrd.marks ∧ ¬ (e.2.action ≤ 4 ∧ e.2.part = p ∧ e.2.slot = slot))

/-- The marks of a round act at their time and free their entries, and what else has come to its time acts with them:
ADMIT_CLOSE closes an OPEN round and aborts one that has not opened; COMPLETE moves CLOSED to COMPLETING; SEAL starts the drain
of COMPLETING (R102, R103, R106, R108, R309).

The drain ends once no record from before SEAL is undecided: SEALED with the digest of the admitted bitmap, or aborted
as COHORT_SMALL or INCOMPLETE_CLIENT (R108, R109, R133); where the client table cannot be read, as SHARD_FAULT (R112).

RELEASE releases a READY round whose cohort is large enough, destroying its key; any other running round aborts with
the cause that R113 gives its state.

The expansion committed whole: with SIGMA 0 the round is READY, else one noise addend for each element goes out first
(R110, R111, R112). -/
def Obligations.RoundMarksMoveTheRound : Prop :=
  (∀ s : State, s.markDue = false → s.marksActed = s)
  ∧ (∀ (s : State) (p slot i : Nat) (m : Mark), s.markNext m = true →
     let r := 2 * p + slot
     (s.roundMark p slot 1 = some (i, m) →
       ∃ t, exec (.admitClose p slot) s = .next t.marksActed ∧ t.mark i = none ∧ t.now = max s.now m.time
         ∧ ((s.round r).st = .opened → t.round r = { s.round r with st := .closed })
         ∧ ((s.round r).st = .created → (t.round r).st = .aborted ∧ (t.round r).cause = causeOpenLate)
         ∧ ((s.round r).st ≠ .opened → (s.round r).st ≠ .created → t.rounds = s.rounds) ∧ SameMemory s t)
     ∧ (s.roundMark p slot 2 = some (i, m) →
       ∃ t, exec (.complete p slot) s = .next t.marksActed ∧ t.mark i = none ∧ t.now = max s.now m.time
         ∧ ((s.round r).st = .closed → t.round r = { s.round r with st := .completing })
         ∧ ((s.round r).st ≠ .closed → t.rounds = s.rounds) ∧ SameMemory s t)
     ∧ (s.roundMark p slot 3 = some (i, m) →
       ∃ t, exec (.seal p slot) s = .next t.marksActed ∧ t.mark i = none ∧ t.now = max s.now m.time
         ∧ ((s.round r).st = .completing → t.round r = { s.round r with draining := true })
         ∧ ((s.round r).st ≠ .completing → t.rounds = s.rounds) ∧ SameMemory s t))
  ∧ (∀ (s : State) (p slot : Nat), slot < 2 →
       let x := s.round (2 * p + slot)
       x.draining = true → x.st = .completing → s.ingestBefore p x.pol.tSeal = false → s.recordAdds p = false →
       ∃ t, exec (.sealDrainEnd p slot) s = .next t ∧ SameMemory s t
         ∧ (x.cohort < x.pol.minCohort → (t.round (2 * p + slot)).st = .aborted ∧ (t.round (2 * p + slot)).cause = causeCohortSmall)
         ∧ (x.pol.minCohort ≤ x.cohort → x.incomplete ≠ 0 →
           (t.round (2 * p + slot)).st = .aborted ∧ (t.round (2 * p + slot)).cause = causeIncompleteClient)
         ∧ (x.pol.minCohort ≤ x.cohort → x.incomplete = 0 → (s.readTable (2 * p + slot)).2.good = false →
           (t.round (2 * p + slot)).st = .aborted ∧ (t.round (2 * p + slot)).cause = causeShardFault)
         ∧ (x.pol.minCohort ≤ x.cohort → x.incomplete = 0 → s.clean p 1 x.mapBase x.pol.tableBytes →
           t.round (2 * p + slot) = { x with
             st := .sealed, draining := false, digest := sha384 (s.admittedMap (2 * p + slot)), collOpen := true, thrAt := none }))
  ∧ (∀ (s : State) (p slot i : Nat) (m : Mark), s.roundMark p slot 4 = some (i, m) → s.markNext m = true →
       let r := 2 * p + slot
       let x := s.round r
       ∃ t, exec (.release p slot) s = .next t.marksActed ∧ t.mark i = none ∧ t.now = max s.now m.time ∧ SameMemory s t
         ∧ (x.st = .ready → x.pol.minCohort ≤ x.cohort → (t.round r).st = .released ∧ (t.round r).pub = zeros 97
           ∧ (t.round r).staged = [] ∧ (t.slot (104 + r)).valid = false)
         ∧ (x.st = .ready → x.cohort < x.pol.minCohort → (t.round r).st = .aborted ∧ (t.round r).cause = causeCohortSmall)
         ∧ (x.st = .sealed → (t.round r).st = .aborted ∧ (t.round r).cause = causeSharesShort)
         ∧ (x.st = .unmasking → (t.round r).st = .aborted ∧ (t.round r).cause = causeUnmaskLate))
  ∧ (∀ (s : State) (p slot : Nat), slot < 2 →
       let r := 2 * p + slot
       let x := s.round r
       x.st = .unmasking → s.expanded r = true → s.isRun = true →
       ((x.unmask ≠ .expanding ∨ x.pol.sigma = 0) →
         ∃ t, exec (.roundShardsConfirmed p slot) s = .next t ∧ t.round r = { x with st := .ready, unmask := .done }
           ∧ OnlyReports { s with rounds := t.rounds } t)
       ∧ (x.unmask = .expanding → x.pol.sigma ≠ 0 →
         ∃ t z, exec (.roundShardsConfirmed p slot) s = .next t ∧ t.round r = { x with unmask := .noise }
           ∧ tfind t.xfers s.nextX = some z ∧ z.src = .noise r ∧ z.dst = .acc r
           ∧ z.rest.map (·.1) = List.range x.pol.vlen ∧ SameMemory s t))

/-! ## Share-sums -/

/-- SHARE_SUM stages a share-sum whose header passes R132, closes collection with the last member, and starts the 200 ms at
THRESHOLD; a failing one is counted as rejected and ends with its status (R132, R133, R134). The 200 ms close collection
(R133).

The combiner serves the round with the earliest SEAL. Envelopes that do not open are rejected: they end with their status and
leave the staged ones. With at least THRESHOLD opened share-sums it reconstructs S and the round unmasks, each share-sum
completing; with too few, collection reopens; with inconsistent ones the round aborts (R14, R133, R134, R135, R136, R137). -/
def Obligations.SharesStageAndCombine : Prop :=
  ((∀ (s : State) (id : Nat) (o : Op) (header : Bytes), Waits s 0x34 id o →
     let x := s.round o.round
     let h := slice header 0 160
     (sumState x (le o.bytes 24 4) = stOk → s.reachable o.fn = true → sumHeader x h = stOk →
       ∃ t y, exec (.shareSum id header) s = .next t ∧ t.round o.round = y ∧ y.staged = x.staged ++ [⟨byteAt h 1, id, h⟩]
         ∧ y.accepted = x.accepted + 1 ∧ y.rejected = x.rejected ∧ y.st = x.st
         ∧ (x.staged.length + 1 < x.pol.committee → y.collOpen = true ∧ y.wants = x.wants)
         ∧ (x.pol.committee ≤ x.staged.length + 1 → y.collOpen = false ∧ y.wants = true)
         ∧ (x.thrAt = none → x.pol.threshold ≤ x.staged.length + 1 → y.thrAt = some s.now)
         ∧ ((x.thrAt ≠ none ∨ x.staged.length + 1 < x.pol.threshold) → y.thrAt = x.thrAt)
         ∧ t.op id = some { o with phase := .running, tok := .none } ∧ (∀ k, k ≠ o.round → t.round k = s.round k)
         ∧ t = { s with rounds := t.rounds, ops := t.ops })
     ∧ (sumState x (le o.bytes 24 4) = stOk → s.reachable o.fn = true → sumHeader x h ≠ stOk →
       ∃ t, exec (.shareSum id header) s = .next t ∧ Ended t id (sumHeader x h)
         ∧ t.round o.round = { x with rejected := min (x.rejected + 1) 255 } ∧ OnlyReports { s with rounds := t.rounds } t)
     ∧ (sumState x (le o.bytes 24 4) ≠ stOk →
       ∃ t, exec (.shareSum id header) s = .next t ∧ Ended t id (sumState x (le o.bytes 24 4))
         ∧ (x.st ≠ .idle → t.round o.round = { x with rejected := min (x.rejected + 1) 255 })
         ∧ OnlyReports { s with rounds := t.rounds } t))
   ∧ ∀ (s : State) (p slot at0 : Nat), slot < 2 → (s.round (2 * p + slot)).thrAt = some at0 →
     (s.round (2 * p + slot)).st = .sealed → (s.round (2 * p + slot)).collOpen = true →
     exec (.shareCollectionTimeout p slot) s = .next ((s.atLeast (at0 + 200000000)).setRound (2 * p + slot)
       { s.round (2 * p + slot) with collOpen := false, wants := true }))
  ∧ (∀ (s : State) (envelopes : List (Nat × Bytes)), s.nextServed = none → exec (.shareCombinerServe envelopes) s = .next s)
  ∧ (∀ (s : State) (r : Nat), s.nextServed = some r → (s.round r).wants = true ∧ (s.round r).st = .sealed
     ∧ ∀ k, k < 64 → (s.round k).wants = true → (s.round k).st = .sealed → (s.round r).pol.tSeal ≤ (s.round k).pol.tSeal)
  ∧ (∀ (s : State) (r : Nat) (envelopes : List (Nat × Bytes)), s.nextServed = some r →
       let x := s.round r
       let sk := if (s.slot (104 + r)).usable engShc (r / 2) then some (beNat (s.slot (104 + r)).key) else none
       let tried := fun (e : Staged) =>
         openEnvelope sk x e (if s.reachable (r / 2 + 1) then tfind envelopes e.member else none)
       let opened := x.staged.filterMap (fun (e : Staged) => (tried e).1.map (fun v => (e.member, v)))
       let bad := x.staged.filter (fun (e : Staged) => (tried e).1.isNone)
       let kept := x.staged.filter (fun (e : Staged) => !bad.any (fun (b : Staged) => b.member == e.member))
       let rejected := if bad = [] then x.rejected else min (x.rejected + bad.length) 255
       ∃ t, exec (.shareCombinerServe envelopes) s = .next t ∧ SameMemory s t ∧ t.shc.round = r
         ∧ (∀ e ∈ bad, (∀ f ∈ x.staged, f.op = e.op → f = e) → x.openOp ≠ some e.op → Ended t e.op (tried e).2)
         ∧ (opened.length < x.pol.threshold → t.shc.opened = opened.length ∧ t.round r = { x with
           staged := kept, accepted := x.accepted - bad.length, rejected := rejected, collOpen := true, wants := false
           thrAt := none })
         ∧ (∀ sums, x.pol.threshold ≤ opened.length → reconstruct x opened = .inl sums →
           (t.round r).st = .unmasking ∧ (t.round r).staged = [] ∧ (t.round r).unmask = .expanding
             ∧ (t.round r).seed = (if x.pol.ring64 then sums else sums.map (· % 2 ^ 32))
             ∧ (t.round r).rejected = rejected ∧ t.shc.opened = opened.length
             ∧ ∀ e ∈ kept, (∀ f ∈ x.staged, f.op = e.op → f = e) → Ended t e.op stOk)
         ∧ (∀ m, x.pol.threshold ≤ opened.length → reconstruct x opened = .inr m →
           (t.round r).st = .aborted ∧ (t.round r).cause = causeShareInconsistent))

/-- Interpolation at 0 over any set of distinct members recovers the constant term of the polynomial that made their
shares, modulo 2^61 − 1 (R135). -/
def Obligations.InterpolationRecoversTheSecret : Prop :=
  ∀ (cs js : List Nat), js.Nodup → (∀ j ∈ js, 1 ≤ j ∧ j ≤ 255) → js.length = cs.length → cs ≠ [] →
    interpolate (fun m => [(cs.mapIdx (fun k a => a * m ^ k)).sum % (2 ^ 61 - 1)]) js 0 0 = cs.headD 0 % (2 ^ 61 - 1)

/-! ## Ingest -/

/-- The check unit takes the record at the front of the ingest queue, decides it and returns its buffers; FLUSH discards what
waits; UNLATCH frees the first-rejection latch (R148, R158, R160, R162). A TRANSIENT error of a pointer or of the engine is
counted; a LASTING one of the engine aborts the partition's rounds first, one of a pointer resets the queue (R112, R161, R164).

A record that fails its length, CRC or format check, or names no bound round, is rejected under that check: its counter
rises, its flag is set, and the first rejection that an enabled flag allows is latched (R147, R148, R162, R164).

The decision of a record by the Ring Sum Engine: an admitted client's segment is added and counted, a new client
joins the cohort before ADMIT_CLOSE and none joins after it, a present segment is retracted, and a client without segments
whose fold is not 0 aborts its round (R104, R105, R106, R107); the lines of its entries hold no error, for the engine has read
them before. -/
def Obligations.IngestRecords : Prop :=
  ((∀ (s : State) (p : Nat) (x : PlacedRec) (xs : List PlacedRec), s.isRun = true → (s.ing p).queue = x :: xs →
     let b := s.recordOf p x
     let u := (b.1.setIng p { b.1.ing p with queue := xs }).checkRec p x.stamp b.2
     exec (.ingestRecordCheck p .none) s = .next ((u.giveBack p 0 x.bufs).settleQueue p 0)
       ∧ (∀ err, err = .pointerTransient ∨ err = .engineTransient → exec (.ingestRecordCheck p err) s =
         exec (.ingestRecordCheck p .none) (s.countError (some p) cntTransient))
       ∧ exec (.ingestRecordCheck p .engineLasting) s =
         exec (.ingestRecordCheck p .none) ((s.countError (some p) cntLasting).engineFault p)
       ∧ ∃ t, exec (.ingestRecordCheck p .pointerLasting) s = .next t ∧ (t.ing p).queue = [] ∧ SameMemory s t
         ∧ bit (t.ing p).istat ingQreset = true)
   ∧ (∀ (s : State) (p : Nat), s.isRun = true → (s.rxq p 0).isSome = true →
     ∃ t, exec (.ingCtlFlush p) s = .next t ∧ (t.ing p).queue = [] ∧ (t.ing p).first3 = (s.ing p).first3 ∧ SameMemory s t)
   ∧ ∀ (s : State) (p : Nat), s.isRun = true →
     exec (.ingCtlUnlatch p) s = .next (s.setIng p { s.ing p with first3 := (s.ing p).first3 &&& 0xFFFFFFFE }))
  ∧ ((∀ (s : State) (p stamp : Nat) (b : Bytes), b.length ≠ 65568 → b.length ≠ 131104 →
       s.checkRec p stamp b = s.rejectRec p cntIngLength ingFormat stIngLength b)
     ∧ (∀ (s : State) (p stamp : Nat) (b : Bytes), (b.length = 65568 ∨ b.length = 131104) →
       le b 28 4 ≠ crc32c (b.take 28 ++ b.drop 32) → s.checkRec p stamp b = s.rejectRec p cntIngCrc ingCrc stIngCrc b)
     ∧ (∀ (s : State) (p stamp : Nat) (b : Bytes), (b.length = 65568 ∨ b.length = 131104) →
       le b 28 4 = crc32c (b.take 28 ++ b.drop 32) → byteAt b 0 = 1 → (recHdrOf b).zeros = true →
       s.taggedRound p (le b 12 4) = none → s.checkRec p stamp b = s.rejectRec p cntIngTag ingTag stIngTag b)
     ∧ ∀ (s : State) (p cnt flag status : Nat) (hdr : Bytes),
       let t := s.rejectRec p cnt flag status hdr
       (t.ing p).istat = (s.ing p).istat ||| 2 ^ flag
         ∧ (bit (s.ing p).ien.toNat flag = true → bit (s.ing p).first3.toNat 0 = false →
           (t.ing p).first3 = BitVec.ofNat 32 (status * 65536 + 1) ∧ (t.ing p).first0 = BitVec.ofNat 32 (le hdr 0 4))
         ∧ (bit (s.ing p).ien.toNat flag = false ∨ bit (s.ing p).first3.toNat 0 = true → (t.ing p).first3 = (s.ing p).first3)
         ∧ OnlyReports { s with ingest := t.ingest } t)
  ∧ (∀ (s : State) (r stamp : Nat) (h : RecHdr) (payload : Bytes),
       let x := s.round r
       let c := s.client r h.client
       let d := s.decideRec r h stamp payload
       (∀ ln ∈ linesOf (x.mapBase + 8 * h.client) 8 ++ linesOf (x.presByte (h.client * x.pol.nseg + h.segment)) 1,
         s.errorIn (r / 2) 1 ln = none) →
       (x.st.code < 2 ∨ 4 < x.st.code → d = (cntIngNotOpen, s))
       ∧ (2 ≤ x.st.code → x.st.code ≤ 4 → x.pol.tSeal ≤ stamp → d = (cntIngLate, s))
       ∧ (2 ≤ x.st.code → x.st.code ≤ 4 → stamp < x.pol.tSeal →
         (h.retract = false → c.st = clientWithdrawn → d = (cntIngWithdrawn, s))
         ∧ (h.retract = false → c.st = clientAbsent → x.pol.tAdmit ≤ stamp → d = (cntIngNotAdmitted, s))
         ∧ (h.retract = false → c.st = clientAbsent → stamp < x.pol.tAdmit →
           d.1 = cntIngAccepted ∧ (d.2.round r).cohort = x.cohort + 1 ∧ (d.2.round r).st = x.st
             ∧ ∃ z, tfind d.2.xfers s.nextX = some z ∧ z.src = .record r ∧ z.dst = .acc r
               ∧ z.rest = segmentAdds x.pol h.segment false payload)
         ∧ (h.retract = false → c.st = clientAdmitted → d.1 = cntIngAccepted ∧ (d.2.round r).cohort = x.cohort)
         ∧ (h.retract = true → c.st ≠ clientAdmitted → d = (cntIngRetractAbsent, s))
         ∧ (h.retract = true → c.st = clientAdmitted → s.present r (h.client * x.pol.nseg + h.segment) = true →
           d.1 = cntIngRetracted
             ∧ (1 < c.segs → (d.2.round r).cohort = x.cohort ∧ (d.2.round r).st = x.st)
             ∧ (c.segs = 1 → c.fold ^^^ segmentCheck h.segment payload = 0 →
               (d.2.round r).cohort = x.cohort - 1 ∧ (d.2.round r).st = x.st)
             ∧ (c.segs = 1 → c.fold ^^^ segmentCheck h.segment payload ≠ 0 →
               (d.2.round r).st = .aborted ∧ (d.2.round r).cause = causeRetractMismatch))))

/-! ## Gate Refresh Units -/

/-- GRU_KEYSET and GRU_PROGRAM register what they name after their checks, else end with the status of the first that fails,
and change nothing else; a line of the image or key set that cannot be read gives its own status. With RELEASE they remove
it; a run that names it keeps it (R170, R181, R187). What a released key set leaves in memory is open.

GRU_RUN waits behind an earlier run; it ends with the status of R187 that its checks give. One with bootstraps starts its
run and holds its decrypted constants; one of linear gates alone writes its outputs and ends. A LASTING fault takes a GRU out
of its partition; a batch without one ends with its results, after a passed retry with the TRANSIENT status noted (R182,
R183, R187, R188). -/
def Obligations.GruTablesAndRuns : Prop :=
  ((∀ (s : State) (id : Nat) (o : Op), Waits s 0x50 id o → bit (byteAt o.bytes 11) 0 = false →
     let a := addrAt o.bytes 16
     let n := le o.bytes 24 8
     let m := s.scan o.vf a.tier a.addr n
     (s.keysetStatus o.vf o.bytes ≠ stOk →
       ∃ t, exec (.gruKeyset id) s = .next t ∧ Ended t id (s.keysetStatus o.vf o.bytes) ∧ OnlyReports s t)
     ∧ (s.keysetStatus o.vf o.bytes = stOk → m.2.good = false →
       ∃ t, exec (.gruKeyset id) s = .next t ∧ Ended t id m.2.status ∧ t.keysets = s.keysets)
     ∧ (s.keysetStatus o.vf o.bytes = stOk → s.clean o.vf a.tier a.addr n →
       (s.keysCanonical o.vf o.bytes = false →
         ∃ t, exec (.gruKeyset id) s = .next t ∧ Ended t id stGruKeyFormat ∧ OnlyReports s t)
       ∧ (s.keysCanonical o.vf o.bytes = true →
         ∃ t, exec (.gruKeyset id) s = .next t ∧ Ended t id stOk
           ∧ tfind t.keysets (o.vf * 4096 + le o.bytes 8 2) = some ⟨byteAt o.bytes 10, a.tier, a.addr, n⟩
           ∧ (∀ k, k ≠ o.vf * 4096 + le o.bytes 8 2 → tfind t.keysets k = tfind s.keysets k)
           ∧ OnlyReports { s with keysets := t.keysets } t)))
   ∧ (∀ (s : State) (id : Nat) (o : Op), Waits s 0x50 id o → bit (byteAt o.bytes 11) 0 = true →
     (s.keyset o.vf (le o.bytes 8 2) = none →
       ∃ t, exec (.gruKeysetRelease id) s = .next t ∧ Ended t id stGruId ∧ OnlyReports s t)
     ∧ ∀ k, s.keyset o.vf (le o.bytes 8 2) = some k →
       (s.runNames o.fn id (fun r => le r.bytes 10 2 == le o.bytes 8 2) = true →
         ∃ t, exec (.gruKeysetRelease id) s = .next t ∧ Ended t id stGruBusy ∧ OnlyReports s t)
       ∧ (s.runNames o.fn id (fun r => le r.bytes 10 2 == le o.bytes 8 2) = false →
         ∃ t, exec (.gruKeysetRelease id) s = .next t ∧ Ended t id stOk ∧ t.keyset o.vf (le o.bytes 8 2) = none
           ∧ t.mem = s.mem
           ∧ (s.memOk → ∀ tr x, tr < 2 → (∀ i, i < k.len → ¬ ((tr = 0 ↔ k.tier = 0) ∧ x = s.phys o.vf k.tier (k.base + i))) →
             rdByte (t.memOf tr) x = rdByte (s.memOf tr) x)))
   ∧ (∀ (s : State) (id : Nat) (o : Op), Waits s 0x51 id o → bit (byteAt o.bytes 10) 0 = false →
     let a := addrAt o.bytes 16
     let n := le o.bytes 24 8
     let m := s.scan o.vf a.tier a.addr n
     (s.programFirst o.vf o.bytes ≠ stOk →
       ∃ t, exec (.gruProgram id) s = .next t ∧ Ended t id (s.programFirst o.vf o.bytes) ∧ OnlyReports s t)
     ∧ (s.programFirst o.vf o.bytes = stOk → m.2.good = false →
       ∃ t, exec (.gruProgram id) s = .next t ∧ Ended t id m.2.status ∧ t.progs = s.progs)
     ∧ (s.programFirst o.vf o.bytes = stOk → s.clean o.vf a.tier a.addr n →
       ((s.programStatus o.vf o.bytes).1 ≠ stOk →
         ∃ t, exec (.gruProgram id) s = .next t ∧ Ended t id (s.programStatus o.vf o.bytes).1 ∧ OnlyReports s t)
       ∧ ((s.programStatus o.vf o.bytes).1 = stOk →
         ∃ t, exec (.gruProgram id) s = .next t ∧ Ended t id stOk
           ∧ tfind t.progs (o.vf * 256 + byteAt o.bytes 8) = some (s.programStatus o.vf o.bytes).2
           ∧ (s.programStatus o.vf o.bytes).2.digest = sha384 (s.ptBytes o.vf a.tier a.addr n)
           ∧ OnlyReports { s with progs := t.progs } t)))
   ∧ ∀ (s : State) (id : Nat) (o : Op), Waits s 0x51 id o → bit (byteAt o.bytes 10) 0 = true →
     let k := o.vf * 256 + byteAt o.bytes 8
     (tfind s.progs k = none → ∃ t, exec (.gruProgramRelease id) s = .next t ∧ Ended t id stGruId ∧ OnlyReports s t)
     ∧ ((tfind s.progs k).isSome = true →
       (s.runNames o.fn id (fun r => byteAt r.bytes 8 == byteAt o.bytes 8) = true →
         ∃ t, exec (.gruProgramRelease id) s = .next t ∧ Ended t id stGruBusy ∧ OnlyReports s t)
       ∧ (s.runNames o.fn id (fun r => byteAt r.bytes 8 == byteAt o.bytes 8) = false →
         ∃ t, exec (.gruProgramRelease id) s = .next t ∧ Ended t id stOk ∧ tfind t.progs k = none
           ∧ OnlyReports { s with progs := t.progs } t)))
  ∧ ((∀ (s : State) (id : Nat) (o : Op), Waits s 0x52 id o →
       (s.runBehind o.vf o.fn id = true → exec (.gruRun id) s = .next s)
       ∧ (s.runBehind o.vf o.fn id = false → s.gruCtx o.vf o.bytes = none →
         ∃ t, exec (.gruRun id) s = .next t ∧ Ended t id stGruId ∧ OnlyReports s t)
       ∧ ∀ c, s.runBehind o.vf o.fn id = false → s.gruCtx o.vf o.bytes = some c →
         (s.runStatus c ≠ stOk →
           ∃ t, exec (.gruRun id) s = .next t ∧ Ended t id (s.runStatus c) ∧ OnlyReports s t)
         ∧ (s.runStatus c = stOk → s.clean o.vf c.prog.tier c.prog.base c.prog.len →
           (s.constants c = none → ∃ t, exec (.gruRun id) s = .next t ∧ Ended t id stGruConstAuth ∧ OnlyReports s t)
           ∧ ∀ plain, s.constants c = some plain → s.clean o.vf c.keys.tier c.keys.base c.keys.len →
             s.clean o.vf c.inA.tier c.inA.addr (c.prog.nin * c.set.ct) →
             (s.bootGates c ≠ [] →
               ∃ t r, exec (.gruRun id) s = .next t ∧ t.op id = some { o with phase := .running }
                 ∧ tfind t.gruRuns o.vf = some r ∧ r.op = id ∧ r.done = [] ∧ r.boots = 0
                 ∧ r.consts = (List.range c.prog.nconst).map (fun i => bit (byteAt plain (i / 8)) (i % 8))
                 ∧ t = { s with ops := t.ops, gruRuns := t.gruRuns, grus := t.grus })
             ∧ (s.bootGates c = [] → s.clean o.vf c.outA.tier c.outA.addr (c.prog.nout * c.set.ct) →
               ∃ t, exec (.gruRun id) s = .next t ∧ Ended t id o.status ∧ tfind t.gruRuns o.vf = none)))
     ∧ ∀ (s : State) (g p : Nat) (r : GruRun) (o : Op) (c : GruCtx), s.gruPart g = some p → tfind s.gruRuns p = some r →
       s.op r.op = some o → s.gruCtx p o.bytes = some c → (tget gruInit s.grus g).batch ≠ [] →
       exec (.gruBatchDone g none) s = .next (s.finishBatch c r g)
         ∧ exec (.gruBatchDone g (some .transient)) s =
           .next (((s.countError (some p) cntTransient).noteRun p stTransientGru).finishBatch c r g)
         ∧ ∃ t, exec (.gruBatchDone g (some .lasting)) s = .next t ∧ (tget gruInit t.grus g).offline = true
           ∧ (tget gruInit t.grus g).batch = [] ∧ t.gruPart g = none)

/-- The linear step of a gate adds the phases of its inputs and its offset, modulo 2^32, under any binary key (R166, R171).

Rotations act as powers of X modulo X^N + 1, and a stored ciphertext reads back as it was written (R165, R167). -/
def Obligations.GateArithmetic : Prop :=
  (∀ (key : List Nat) (a b : Lwe), a.length = key.length + 1 → b.length = key.length + 1 → (∀ k ∈ key, k < 2) →
     let f := lwePhase key
     let m := 2 ^ 32
     f (gateLinear 0x0 a b) = (m - f a) % m
       ∧ f (gateLinear 0x3 a b) = (f a + f b + (m - 2 ^ 29)) % m
       ∧ f (gateLinear 0x4 a b) = (2 * m - f a - f b + 2 ^ 29) % m
       ∧ f (gateLinear 0x5 a b) = (f a + f b + 2 ^ 29) % m
       ∧ f (gateLinear 0x6 a b) = (2 * m - f a - f b + (m - 2 ^ 29)) % m
       ∧ f (gateLinear 0x7 a b) = (2 * f a + 2 * f b + 2 ^ 30) % m
       ∧ f (gateLinear 0x8 a b) = (4 * m - 2 * f a - 2 * f b + (m - 2 ^ 30)) % m
       ∧ f (gateLinear 0x9 a b) = (m - f a + f b + (m - 2 ^ 29)) % m
       ∧ f (gateLinear 0xA a b) = (f a + (m - f b) + (m - 2 ^ 29)) % m
       ∧ f (gateLinear 0xB a b) = (m - f a + f b + 2 ^ 29) % m
       ∧ f (gateLinear 0xC a b) = (f a + (m - f b) + 2 ^ 29) % m)
  ∧ ((∀ (x : List Nat) (e : Nat), (∀ v ∈ x, v < qMod) → 0 < x.length → polyRot (e + x.length) x = polyNeg (polyRot e x))
     ∧ (∀ (x : List Nat), (∀ v ∈ x, v < qMod) → polyRot 0 x = x ∧ polyNeg (polyNeg x) = x)
     ∧ ∀ (n ct : Nat) (x : Lwe), x.length = n + 1 → (∀ w ∈ x, w < 2 ^ 32) → 4 * (n + 1) ≤ ct →
       (lweBytes ct x).length = ct ∧ lweOf n (lweBytes ct x) = x)

/-! ## Tiers A and B -/

/-- The patrol counts what it corrects; a LASTING line is poisoned, latched for the PF and for its partition's VF where no
latch is held, and its row is retired onto a spare row while there is one, else poisoned for good; a round that holds part of
the row aborts. A poisoned line stays as it is (R112, R199, R200, R203, R204, R205, R213).

A write of 1 to MEM_ERR_INFO.VALID frees the latch of its function and no other (R213). -/
def Obligations.MemoryErrorsAreFoundAndFreed : Prop :=
  (∀ (s : State) (tier line : Nat), s.isRun = true → tier < 2 → line < tierBytes tier →
     let pa := line / 64 * 64
     let key := lineKey tier line
     let gone := { s with mem := { s.mem with upset := tdel key s.mem.upset } }
     let own := (s.partAddr tier line).map (·.1)
     (s.poisoned tier line = true → ∀ err, exec (.memPatrolTick tier line err) s = .next s)
     ∧ (s.poisoned tier line = false →
       (tfind s.mem.upset key = none → exec (.memPatrolTick tier line none) s = .next s)
       ∧ exec (.memPatrolTick tier line (some .corrected)) s =
         .next (gone.countMod (if tier = 0 then cntMemCorrectedA else cntMemCorrectedB))
       ∧ exec (.memPatrolTick tier line (some .transient)) s = .next (gone.countError own cntTransient)
       ∧ ∃ t, exec (.memPatrolTick tier line (some .lasting)) s = .next t ∧ t.poisoned tier line = true
         ∧ t.mem.errPf.valid = true ∧ SameMemory s t
         ∧ (s.mem.errPf.valid = false → t.mem.errPf.tier = tier ∧ t.mem.errPf.addr = pa
           ∧ t.mem.errPf.status = stMemUncorrectable)
         ∧ (s.mem.errPf.valid = true → t.mem.errPf = s.mem.errPf)
         ∧ (∀ p a, s.partAddr tier pa = some (p, a) → (tget errInit t.mem.errVf p).valid = true
           ∧ ((tget errInit s.mem.errVf p).valid = false → (tget errInit t.mem.errVf p).addr = a))
         ∧ (tget 0 s.mem.spares (tier * 256 + groupOf tier pa) < spareRows tier → rowKey tier pa ∈ t.mem.retired)
         ∧ (spareRows tier ≤ tget 0 s.mem.spares (tier * 256 + groupOf tier pa) → key ∈ t.mem.stuck)
         ∧ ∀ p a r, s.partAddr tier pa = some (p, a) → r / 2 = p → s.rowHits r tier pa = true →
           (s.round r).st.running = true → (t.round r).st = .aborted ∧ (t.round r).cause = causeShardFault))
  ∧ (∀ (s : State) (fn : Nat), s.isRun = true →
       ∃ t, exec (.memErrInfoClear fn) s = .next t
         ∧ (fn = 0 → t.mem.errPf.valid = false ∧ t.mem.errVf = s.mem.errVf)
         ∧ (fn ≠ 0 → (tget errInit t.mem.errVf (fn - 1)).valid = false ∧ t.mem.errPf = s.mem.errPf
           ∧ ∀ q, q ≠ fn - 1 → tget errInit t.mem.errVf q = tget errInit s.mem.errVf q)
         ∧ t = { s with mem := t.mem })

/-! ## Tier C and the hold-up bank -/

/-- FLASH_READ answers the blocks that are mapped and zeros elsewhere, to host memory or to a tier, and ends with ST_OK where
nothing failed; a descriptor that a check of R219 or R224 fails ends with its status; each waits until the controller serves
descriptors (R219, R220, R221, R224, R242).

FLASH_WRITE puts its data into extents of at most 16 MiB, cut into pages, that wait at the gate, once the writes before it
have started; FLASH_TRIM unmaps its blocks and no other (R220, R221, R239).

CHECKPOINT captures its extents as a generation with the next number, whose pages, list page first and commit page last, wait
at the gate; CKPT_RESTORE writes the generation that it names back, the bytes that its pages were made from (R232, R234, R235,
R236). -/
def Obligations.FlashTransfers : Prop :=
  (∀ (s : State) (id : Nat) (o : Op) (errs : List (Nat × FlashErr)), Waits s 0x60 id o →
     (s.flashReady = false → exec (.flashRead id errs) s = .next s)
     ∧ (s.flashReady = true → s.flashStatus o.vf false o.bytes ≠ stOk →
       ∃ t, exec (.flashRead id errs) s = .next t ∧ Ended t id (s.flashStatus o.vf false o.bytes) ∧ OnlyReports s t)
     ∧ ∀ key, s.flashReady = true → s.flashStatus o.vf false o.bytes = stOk → s.tierCKey o.vf = some key →
       let d := o.bytes
       let blk := fun (i : Nat) => le d 16 8 / 4096 + i
       let data := ((List.range (le d 32 8 / 4096)).map (fun i => match s.lblock o.vf (blk i) with
         | some b => match tfind s.flc.pages b.page with
           | some x => slice (x.body.plain (lbKey o.vf (blk i)) b.idx key) 0 4096
           | none => zeros 4096
         | none => zeros 4096)).flatten
       (∀ i, i < le d 32 8 / 4096 → ∀ b, s.lblock o.vf (blk i) = some b → b.lost = false ∧ b.torn = false
         ∧ (s.die (pageDie b.page)).gone = false ∧ ∃ x, tfind s.flc.pages b.page = some x ∧ x.bad = false) →
       (byteAt d 8 = 1 → s.reachable o.fn = false →
         ∃ t, exec (.flashRead id []) s = .next t ∧ Ended t id stHifHostUnreachable ∧ OnlyReports s t)
       ∧ (byteAt d 8 = 1 → s.reachable o.fn = true → ∃ t l, exec (.flashRead id []) s = .next t ∧ Ended t id stOk
         ∧ t.out = s.out ++ .hostWrite o.fn (le d 24 8) data :: l ∧ OnlyReports s t)
       ∧ (byteAt d 8 = 0 → let w := s.memWrite o.vf (addrAt d 24).tier (addrAt d 24).addr data
         ∃ t, exec (.flashRead id []) s = .next t ∧ Ended t id (mergeStatus [w.2.status]) ∧ MemoryAs t w.1 ∧ t.flc = s.flc))
  ∧ ((∀ (s : State) (id : Nat) (o : Op) (data : Bytes), Waits s 0x61 id o →
       let n := le o.bytes 32 8
       let a := addrAt o.bytes 24
       let bytes := if byteAt o.bytes 8 = 1 then slice data 0 n else s.ptBytes o.vf a.tier a.addr n
       (s.flashReady = false ∨ s.flashBehind id o = true → exec (.flashWrite id data []) s = .next s)
       ∧ (s.flashReady = true → s.flashBehind id o = false → s.flashStatus o.vf true o.bytes ≠ stOk →
         ∃ t, exec (.flashWrite id data []) s = .next t ∧ Ended t id (s.flashStatus o.vf true o.bytes) ∧ OnlyReports s t)
       ∧ ∀ key, s.flashReady = true → s.flashBehind id o = false → s.flashStatus o.vf true o.bytes = stOk →
         s.tierCKey o.vf = some key → (byteAt o.bytes 8 = 1 → s.reachable o.fn = true) →
         (byteAt o.bytes 8 = 0 → s.clean o.vf a.tier a.addr n) →
         ∃ t, exec (.flashWrite id data []) s = .next t ∧ t.op id = some { o with phase := .running, status := stOk }
           ∧ t.flc.nextExt = s.flc.nextExt + ceilDiv n (2 ^ 24)
           ∧ (∀ j, j < ceilDiv n (2 ^ 24) → ∃ x, tfind t.flc.extents (s.flc.nextExt + j) = some x ∧ x.op = some id
             ∧ x.started = false ∧ x.system = false ∧ x.size = min (2 ^ 24) (n - j * 2 ^ 24) ∧ x.part = some o.vf
             ∧ x.pages = blockPagesOf o.vf (le o.bytes 16 8 / 4096 + j * 4096) key ((bytes.drop (j * 2 ^ 24)).take (2 ^ 24)))
           ∧ t.flc.lblocks = s.flc.lblocks ∧ SameMemory s t)
     ∧ ∀ (s : State) (id : Nat) (o : Op), Waits s 0x62 id o →
       let lbn := le o.bytes 16 8 / 4096
       let n := le o.bytes 32 8 / 4096
       (s.flashReady = false ∨ s.flashBehind id o = true → exec (.flashTrim id) s = .next s)
       ∧ (s.flashReady = true → s.flashBehind id o = false →
         (s.trimStatus o.vf o.bytes ≠ stOk →
           ∃ t, exec (.flashTrim id) s = .next t ∧ Ended t id (s.trimStatus o.vf o.bytes) ∧ OnlyReports s t)
         ∧ (s.trimStatus o.vf o.bytes = stOk → s.blocksBusy o.vf lbn n = true → exec (.flashTrim id) s = .next s)
         ∧ (s.trimStatus o.vf o.bytes = stOk → s.blocksBusy o.vf lbn n = false →
           ∃ t, exec (.flashTrim id) s = .next t ∧ Ended t id stOk ∧ (∀ i, i < n → t.lblock o.vf (lbn + i) = none)
             ∧ (∀ k, (k < lbKey o.vf lbn ∨ lbKey o.vf (lbn + n) ≤ k) → tfind t.flc.lblocks k = tfind s.flc.lblocks k)
             ∧ OnlyReports { s with flc := t.flc } t)))
  ∧ ((∀ (s : State) (id : Nat) (o : Op) (list : Bytes), Waits s 0x63 id o → s.flashReady = true →
       (s.ckptStatus o.vf o.bytes ≠ stOk →
         ∃ t, exec (.checkpoint id list []) s = .next t ∧ Ended t id (s.ckptStatus o.vf o.bytes) ∧ OnlyReports s t)
       ∧ ∀ key, s.ckptStatus o.vf o.bytes = stOk → s.reachable o.fn = true → s.tierCKey o.vf = some key →
         let l := extentsOf list (le o.bytes 24 2)
         let lst := l.map (fun e => (e.1.tier, e.1.addr, e.2))
         let data := (l.map (fun e => s.ptBytes o.vf e.1.tier e.1.addr e.2)).flatten
         let held := (((s.gens o.vf).filter (s.genKept o.vf (s.gens o.vf))).map Gen.bytes).sum
         let gen := tget 1 s.flc.nextGen o.vf
         let seq := tget 0 s.flc.ckptSeq o.vf
         let pages := genData gen o.vf seq key (listBytes lst) data
         let tag := le o.bytes 28 4
         (s.listStatus o.vf l ≠ stOk →
           ∃ t, exec (.checkpoint id list []) s = .next t ∧ Ended t id (s.listStatus o.vf l) ∧ OnlyReports s t)
         ∧ (s.listStatus o.vf l = stOk → (∀ e : AddrWord × Nat, e ∈ l → s.clean o.vf e.1.tier e.1.addr e.2) →
           (held + (pages.length + 1) * 16384 ≤ (s.cfg o.vf).logBytes →
             ∃ t, exec (.checkpoint id list []) s = .next t
               ∧ ⟨gen, tag, lst, key, seq, pages.length, []⟩ ∈ t.gens o.vf
               ∧ tget 1 t.flc.nextGen o.vf = (gen + 1) % 2 ^ 32 ∧ tget 0 t.flc.ckptSeq o.vf = seq + pages.length + 1
               ∧ (∀ x ∈ s.gens o.vf, s.genKept o.vf (s.gens o.vf) x = true → x ∈ t.gens o.vf)
               ∧ (∀ j, j < ceilDiv (pages.length + 1) 1024 → ∃ x, tfind t.flc.extents (s.flc.nextExt + j) = some x
                 ∧ x.op = some id ∧ x.started = false
                 ∧ x.pages = ((pages ++ [genCommit gen tag l.length o.vf seq (listBytes lst) pages]).drop (j * 1024)).take 1024)
               ∧ t.op id = some { o with phase := .running, status := stOk, detail := leBytes 4 gen } ∧ SameMemory s t)
           ∧ ((s.cfg o.vf).logBytes < held + (pages.length + 1) * 16384 →
             ∃ t, exec (.checkpoint id list []) s = .next t ∧ Ended t id stFlcCkptSpace ∧ SameMemory s t ∧ t.flc = s.flc)))
     ∧ (∀ (s : State) (id : Nat) (o : Op) (key : Bytes), Waits s 0x64 id o → s.flashReady = true →
       s.tierCKey o.vf = some key → zeroAt o.bytes 8 20 = true → zeroAt o.bytes 32 32 = true →
       (s.findGen o.vf (le o.bytes 28 4) = none →
         ∃ t, exec (.ckptRestore id []) s = .next t ∧ Ended t id stFlcNoCkpt ∧ OnlyReports s t)
       ∧ ∀ g, s.findGen o.vf (le o.bytes 28 4) = some g →
         (∀ e : Nat × Nat × Nat, e ∈ g.extents → s.inUnits o.vf e.1 e.2.1 e.2.2 = true ∧ s.aggLocked o.vf e.1 e.2.1 e.2.2 = false
           ∧ s.gruLocked o.vf e.1 e.2.1 e.2.2 = false) →
         let w := State.restoreList o.vf g.extents (s.genBytes o.vf g key) s
         ∃ t, exec (.ckptRestore id []) s = .next t ∧ Ended t id (mergeStatus w.2) ∧ MemoryAs t w.1 ∧ t.flc = s.flc)
     ∧ ∀ (s : State) (p : Nat) (g : Gen) (key : Bytes) (f : Nat → Bytes),
       (∀ i, i < g.count - 1 → ∃ x, s.genPage g (i + 1) = some x ∧ x.body = .log p (g.seq + i + 1) key (f i)) →
       s.genBytes p g key = (List.range (g.count - 1)).flatMap (fun i => slice (f i) 0 16384))

/-- The gate starts the next extent exactly when the dirty amount and its size fit the budget, and holds it otherwise. A page
program that verifies takes its page out of its extent, at its retry with the TRANSIENT status; a page of logical blocks makes
them readable from it, and the last page ends the write. One whose retry failed leaves the page to be programmed again: its
block is a grown defect and a spare of its die takes its place, or its die is gone (R220, R221, R227, R229, R237, R239). -/
def Obligations.GateAndPagePrograms : Prop :=
  (∀ (s : State) (i : Nat) (x : Extent), s.flc.nextExtent = some (i, x) →
    (s.isRun = true → s.flc.short = false → s.dirty + x.size ≤ s.flc.budget * 67108864 →
      ∃ t, exec .gateExtentAdmit s = .next t ∧ tfind t.flc.extents i = some { x with started := true }
        ∧ (∀ k, k ≠ i → tfind t.flc.extents k = tfind s.flc.extents k) ∧ OnlyReports { s with flc := t.flc } t)
    ∧ (s.isRun = false ∨ s.flc.short = true ∨ s.flc.budget * 67108864 < s.dirty + x.size →
      exec .gateExtentAdmit s = .next s))
  ∧ ∀ (s : State) (i : Nat) (x : Extent) (y : StagedPage) (rest : List StagedPage), tfind s.flc.extents i = some x →
    (s.isRun = true ∨ s.pwr.phase = .holdup) → x.started = true → s.pageBehind i x = false → x.pages = y :: rest →
    (∀ res, res = .ok ∨ res = .transient →
      let st := fun (o : Op) => if res = .transient then mergeStatus [o.status, stTransientFlash] else o.status
      (s.pagePlace y = none → exec (.flashProgramDone i res) s = .next s)
      ∧ ((s.pagePlace y).isSome = true → ∃ t, exec (.flashProgramDone i res) s = .next t
        ∧ (rest ≠ [] → tfind t.flc.extents i = some { x with pages := rest, progs := x.progs + 1 })
        ∧ (rest = [] → tfind t.flc.extents i = none
          ∧ ∀ op o, x.piece = false → x.op = some op → s.op op = some o → o.phase = .running →
            (∀ k e, k ≠ i → (k, e) ∈ s.flc.extents → e.op ≠ some op) → Ended t op (st o))
        ∧ ∀ lbs : List (Nat × Bytes × Bytes), y.dest = .user → y.body = .blocks lbs → (lbs.map (·.1)).Nodup →
          (∀ (j : Nat) (e : Nat × Bytes × Bytes), lbs[j]? = some e → ∃ b z, tfind t.flc.lblocks e.1 = some b ∧ b.lost = false ∧ b.torn = false
            ∧ tfind t.flc.pages b.page = some z ∧ z.bad = false ∧ z.body.plain e.1 b.idx e.2.1 = slice e.2.2 0 4096)
          ∧ ∀ k, (∀ e ∈ lbs, k ≠ e.1) → tfind t.flc.lblocks k = tfind s.flc.lblocks k))
    ∧ ∀ s1 sb d, s.pagePlace y = some (s1, sb, d) →
      (∃ t, exec (.flashProgramDone i .grown) s = .next t
        ∧ (∀ k e, k ≠ s.flc.nextExt → tfind s.flc.extents k = some e → tfind t.flc.extents k = some e)
        ∧ (∀ blk, (tfind s1.flc.sblks sb).bind (fun b => tfind b.blks d) = some blk →
          blkKey d blk ∈ t.flc.badBlks ∧ (t.die d).spares = (s.die d).spares - 1)
        ∧ ∀ op o, x.op = some op → s.op op = some o → o.phase = .running →
          t.op op = some { o with status := mergeStatus [o.status, stLastingFlash] })
      ∧ ∃ t, exec (.flashProgramDone i .dieGone) s = .next t ∧ (t.die d).gone = true

/-- The patrol counts what it corrects; a page that its stripe rebuilds keeps its blocks and its block of the die retires, one
that it does not loses them. A wear move sends the data of a worn block to another of its die, through the gate, and frees it;
an erased block returns to use with its count raised, unless it is a grown defect or its die is gone (R216, R217, R225, R226,
R227, R228, R229).

The discharge test measures the capacitance: BANK and the events follow it; a failed charger makes BANK FAULT (R384,
R385). -/
def Obligations.FlashUpkeepAndBank : Prop :=
  ((∀ (s : State) (die block page sb i : Nat) (b : SBlock) (x : NPage), s.flashReady = true →
     s.blockAt die block = some (sb, b) → die < 64 → page < b.pagesPer → i < 4 →
     let key := pageKey sb die page
     let own := (s.flc.lblocks.find? (fun e => e.2.page == key && e.2.idx == i)).map (fun e => e.1 / 2 ^ 36)
     tfind s.flc.pages key = some x →
     (∀ errs : List (Nat × FlashErr), (∀ e ∈ errs, e.1 / 4 ≠ key) → exec (.flashPatrolTick die block page errs) s = .next s)
     ∧ (x.bad = false → (s.die die).gone = false →
       exec (.flashPatrolTick die block page [(4 * key + i, .corrected)]) s = .next (s.countMod cntFlcCorrected)
       ∧ exec (.flashPatrolTick die block page [(4 * key + i, .transient)]) s = .next (s.countError own cntTransient)
       ∧ ∃ t, exec (.flashPatrolTick die block page [(4 * key + i, .lasting)]) s = .next t
         ∧ (∀ k, (tfind s.flc.sblks sb).bind (fun b => tfind b.blks die) = some k → blkKey die k ∈ t.flc.badBlks)
         ∧ (∀ d, s.rebuild key [key] = some d → t.flc.lblocks = s.flc.lblocks
           ∧ tfind t.flc.pages key = some { x with body := .bytes d, bad := false })
         ∧ (s.rebuild key [key] = none → ∀ k c, tfind s.flc.lblocks k = some c → c.page = key → c.idx = i →
           tfind t.flc.lblocks k = some { c with lost := true })))
   ∧ (∀ (s : State) (die block sb : Nat) (b : SBlock), s.flashReady = true → s.blockAt die block = some (sb, b) →
     tfind s.flc.sblks sb = some b → b.opened = false → s.blockHolds sb b = true →
     s.flc.badBlks.contains (blkKey die block) = false →
     (tget 0 s.flc.erases (blkKey die block) + 500) * s.dieBlocks ≤ s.eraseSum die →
     (s.drawBlock die = none → exec (.wearMove die block) s = .next s)
     ∧ ∀ nb, s.drawBlock die = some nb → ∃ t, exec (.wearMove die block) s = .next t ∧ blkKey die block ∈ t.flc.freeBlks
       ∧ t.flc.lblocks = s.flc.lblocks ∧ t.flc.pages = s.flc.pages
       ∧ (∃ c, tfind t.flc.sblks sb = some c ∧ tfind c.blks die = some nb)
       ∧ (s.blockPages sb die ≠ [] → ∃ x, tfind t.flc.extents s.flc.nextExt = some x ∧ x.started = false
         ∧ x.pages = (s.blockPages sb die).map (fun e => ⟨.back e.1, e.2.body, e.2.footer⟩))
       ∧ OnlyReports { s with flc := t.flc } t)
   ∧ ∀ (s : State) (die block : Nat), s.isRun = true →
     let k := blkKey die block
     (s.erasable die block = false → ∀ res, exec (.flashEraseDone die block res) s = .next s)
     ∧ (s.erasable die block = true →
       (∀ res, res = .ok ∨ res = .transient → ∃ t, exec (.flashEraseDone die block res) s = .next t
         ∧ t.flc.freeBlks.contains k = false ∧ tget 0 t.flc.erases k = tget 0 s.flc.erases k + 1
         ∧ OnlyReports { s with flc := t.flc } t)
       ∧ (∃ t, exec (.flashEraseDone die block .grown) s = .next t ∧ t.flc.freeBlks.contains k = false
         ∧ k ∈ t.flc.badBlks ∧ (t.die die).spares = (s.die die).spares - 1 ∧ OnlyReports { s with flc := t.flc } t)
       ∧ ∃ t, exec (.flashEraseDone die block .dieGone) s = .next t ∧ (t.die die).gone = true))
  ∧ ((∀ (s : State), (s.pwr.phase = .run ∨ s.pwr.phase = .sequence) → exec .bankCapacitanceTest s = .next { s with pwr := { s.pwr with testing := true } })
     ∧ (∀ (s : State) (c : Nat), s.pwr.testing = true → ∃ t, exec (.bankTestDone c) s = .next t ∧ t.pwr.testing = false
       ∧ t.pwr.cMeas = c ∧ (c < 156 ∨ s.pwr.charger = false → t.pwr.bank = 3)
       ∧ (156 ≤ c → c < 250 → s.pwr.charger = true → t.pwr.bank = 2)
       ∧ (250 ≤ c → s.pwr.charger = true →
         t.pwr.bank = if budgetOf (twoEnergy c s.pwr.bankMv) = 32 then 0 else 1)
       ∧ (250 ≤ c → t.evSeq = s.evSeq) ∧ OnlyReports { s with pwr := t.pwr } t)
     ∧ ∀ (s : State), s.pwr.charger = true → ∃ t, exec .chargerFault s = .next t ∧ t.pwr.charger = false ∧ t.pwr.bank = 3
       ∧ tget 0 t.evSeq srcPower = (tget 0 s.evSeq srcPower + 1) % 2 ^ 32 ∧ OnlyReports { s with pwr := t.pwr } t)

/-- The measurement sets the budget D of R238 from the energy above 16.0 V, in units of 64 MiB: D is the smaller of 2 GiB and
the bytes that half the pSLC rate programs in the time that the energy above 70 J feeds 250 W. -/
def Obligations.DirtyBudgetFromEnergy : Prop :=
  (∀ (twoE : Nat),
    let e : Rat := (twoE : Rat) / (2 * 10 ^ 9)
    (70 < e → (budgetOf twoE : Int) * 67108864 = min (2 * 2 ^ 30) (((e - 70) / 250 * 2400000000 / 67108864).floor * (64 * 2 ^ 20)))
    ∧ (e ≤ 70 → budgetOf twoE = 0) ∧ (e = 320 → budgetOf twoE * 67108864 = 2 * 2 ^ 30))
  ∧ ∀ (s : State) (mv : Nat), ∃ t, exec (.holdupEnergyMeasure mv) s = .next t ∧ t.pwr.bankMv = mv
    ∧ (s.isRun = true → t.flc.budget = budgetOf (twoEnergy s.pwr.cMeas mv)) ∧ (s.isRun = false → t.flc = s.flc)

/-! ## Firmware -/

/-- Loading: the mailbox opens 30 s after the wait began; a bundle of the booted manifest whose four load parts verify is
loaded and, with the start-up test ended, every core runs; one whose parts fail is rejected (R358, R359, R360). When that
moment lies beyond a mark that has still to act, the model's time stops before the mark (notes/assumptions/2.md).

Staging: a piece that FW_STAGE brings waits at the gate as an extent of the system class, cut into pages; a BEGIN discards
what slot B held; a manifest that fails R356 leaves slot B EMPTY. Each page adds its bytes, the last page of a piece records
it, and the last piece of all makes slot B STAGED when every part of it verifies, FAILED when not (R237, R356, R361,
R362). -/
def Obligations.FirmwareLoadsAndStages : Prop :=
  ((∀ s : State, s.isRun = true → s.fw.load = 1 →
     ∃ t, exec .loadWaitTimeout s = .next t ∧ t.now = (s.atLeast (s.fw.waitFrom + 30000000000)).now
       ∧ t.fw = { s.fw with load := 2 } ∧ tget 0 t.evSeq srcThimble = (tget 0 s.evSeq srcThimble + 1) % 2 ^ 32
       ∧ OnlyReports { s with fw := t.fw, now := t.now } t)
   ∧ (∀ s : State, s.isRun = true → s.fw.load = 2 → exec .fwMboxGo s = .next { s with fw := { s.fw with offered := true } })
   ∧ (∀ (s : State) (b : Bytes), s.isRun = true → s.fw.load = 1 ∨ s.fw.load = 2 →
     (slice b 0 manifestBytes = s.fw.manifest → s.bundleOk s.fw.manifest b [3, 4, 5, 6] = true →
       (s.rng.ended = true → ∃ t, exec (.mgmtImageTransferDone b) s = .next t
         ∧ t.fw = { s.fw with load := 4, offered := false }
         ∧ tget 0 t.evSeq srcThimble = (tget 0 s.evSeq srcThimble + 1) % 2 ^ 32 ∧ OnlyReports { s with fw := t.fw } t)
       ∧ (s.rng.ended = false →
         exec (.mgmtImageTransferDone b) s = .next { s with fw := { s.fw with load := 3, offered := false } }))
     ∧ (slice b 0 manifestBytes = s.fw.manifest → s.bundleOk s.fw.manifest b [3, 4, 5, 6] = false →
       exec (.mgmtImageTransferDone b) s = .next (s.raise srcThimble evFwLoadRejected 0xFF (leBytes 2 stFwPartAuth)))
     ∧ (slice b 0 manifestBytes ≠ s.fw.manifest → s.manStatus (slice b 0 manifestBytes) ≠ stOk →
       exec (.mgmtImageTransferDone b) s =
         .next (s.raise srcThimble evFwLoadRejected 0xFF (leBytes 2 (s.manStatus (slice b 0 manifestBytes)))))
     ∧ (s.fw.offered = true → exec (.mailboxBundleReadDone b) s =
         exec (.mgmtImageTransferDone b) { s with fw := { s.fw with offered := false } })))
  ∧ ((∀ (s : State) (id : Nat) (o : Op) (piece : Bytes), Waits s 0x93 id o → s.flashReady = true →
       stageFieldOk o.bytes (s.fw.bound o.bytes) = true → s.stageState o.bytes = stOk → s.reachable 0 = true →
       bit (byteAt o.bytes 8) 0 = false → le o.bytes 24 8 ≠ 0 →
       ∃ t, exec (.fwStage id piece) s = .next t ∧ t.op id = some { o with phase := .running }
         ∧ (let parts := piecesOf 16384 (slice piece 0 (le o.bytes 32 4))
           tfind t.flc.extents s.flc.nextExt = some ⟨some id, none, true, le o.bytes 32 4, false,
             parts.mapIdx (fun j b => ⟨.piece s.fw.stageNo (le o.bytes 24 8 + 16384 * j) parts.length, .bytes b, []⟩), 0⟩)
         ∧ (∀ k, k ≠ s.flc.nextExt → tfind t.flc.extents k = tfind s.flc.extents k)
         ∧ t = { s with fw := { s.fw with slotB := 1 }, flc := t.flc, ops := t.ops })
     ∧ (∀ (s : State) (id : Nat) (o : Op) (piece : Bytes), Waits s 0x93 id o → s.flashReady = true →
       stageFieldOk o.bytes (s.fw.bound o.bytes) = true → s.stageState o.bytes = stOk → s.reachable 0 = true →
       le o.bytes 24 8 = 0 → let m := slice (slice piece 0 (le o.bytes 32 4)) 0 manifestBytes
       let st := if s.manStatus m = stOk ∧ stageFieldOk o.bytes (some (manLength m)) = false then stFwField else s.manStatus m
       ∃ t, exec (.fwStage id piece) s = .next t ∧ SameMemory s t
         ∧ if st = stOk then t.op id = some { o with phase := .running } ∧ t.fw.slotB = 1 ∧ t.fw.manB = m
           else Ended t id st ∧ t.fw.slotB = 0 ∧ t.fw.manB = [] ∧ t.fw.pieces = [] ∧ t.fw.refused = true)
     ∧ (∀ (s : State) (id : Nat) (o : Op) (piece : Bytes), Waits s 0x93 id o → s.flashReady = true →
       stageFieldOk o.bytes (s.fw.bound o.bytes) = true → s.stageState o.bytes = stOk → s.reachable 0 = true →
       bit (byteAt o.bytes 8) 0 = true → le o.bytes 24 8 ≠ 0 →
       ∃ t, exec (.fwStage id piece) s = .next t ∧ t.op id = some { o with phase := .running } ∧ t.fw.slotB = 1
         ∧ t.fw.manB = [] ∧ t.fw.pieces = [] ∧ t.fw.bytesB = [] ∧ SameMemory s t)
     ∧ ∀ (s : State) (i off parts : Nat) (x : Extent) (data : Bytes) (rest : List StagedPage),
       tfind s.flc.extents i = some x → (s.isRun = true ∨ s.pwr.phase = .holdup) → x.started = true →
       s.pageBehind i x = false → x.pages = ⟨.piece s.fw.stageNo off parts, .bytes data, []⟩ :: rest →
       (s.pagePlace ⟨.piece s.fw.stageNo off parts, .bytes data, []⟩).isSome = true →
       let u := s.storePart s.fw.stageNo off parts data
       ∃ t, exec (.flashProgramDone i .ok) s = .next t ∧ SameMemory s t
         ∧ (Memory.wf s.fw.bytesB = true → rdBytes t.fw.bytesB off data.length = data)
         ∧ ((∀ k, k < parts → 4 * (off / 65536) + k ≠ off / 16384 → s.fw.parts.contains (4 * (off / 65536) + k) = true) →
           t.fw.pieces.contains (off / 65536) = true)
         ∧ (rest ≠ [] → tfind t.flc.extents i = some { x with pages := rest, progs := x.progs + 1 } ∧ t.fw = u.fw)
         ∧ (rest = [] → tfind t.flc.extents i = none
           ∧ (u.fw.complete = false → t.fw = u.fw)
           ∧ (u.fw.complete = true → t.fw.slotB = if u.slotBOk then 2 else 4)
           ∧ ∀ op o, x.op = some op → s.op op = some o → o.phase = .running →
             (∀ k e, k ≠ i → (k, e) ∈ s.flc.extents → e.op ≠ some op) →
             Ended t op (mergeStatus [o.status, if u.fw.complete && !u.slotBOk then stFwPartAuth else stOk])))

/-- FW_ACTIVATE sets the FIRMWARE mark and the fallback mark 600 s after it; FW_CONFIRM confirms the basted image, raises the
floor to its epoch and drops the fallback mark; the verified copy makes slot A the image (R363, R365, R366). -/
def Obligations.FirmwareActivatesAndConfirms : Prop :=
  (∀ (s : State) (id : Nat) (o : Op), Waits s 0x94 id o → s.activateStatus o = stOk →
    ∃ t i j m f, exec (.fwActivate id) s = .next t ∧ Ended t id stOk
      ∧ t.mark i = some m ∧ m.action = 9 ∧ m.fallback = false ∧ some m.time = timeAt o.bytes 16 ∧ m.st = .set ∧ m.desc = j
      ∧ t.mark j = some f ∧ f.action = 9 ∧ f.fallback = true ∧ f.time = m.time + 600000000000 ∧ f.st = .set
      ∧ t.freeMarks + 4 = s.freeMarks ∧ (∀ k x, s.mark k = some x → t.mark k = some x)
      ∧ OnlyReports { s with mrd := t.mrd } t)
  ∧ (∀ (s : State) (v : Word), s.isRun = true →
    (s.fw.image ≠ 1 → exec (.fwConfirmWrite v) s = .next (s.countMod cntFwBadConfirm))
    ∧ (v.toNat ≠ manVersion s.fw.manB → exec (.fwConfirmWrite v) s = .next (s.countMod cntFwBadConfirm))
    ∧ (s.fw.image = 1 → v.toNat = manVersion s.fw.manB →
      (s.fallbackMark = none → exec (.fwConfirmWrite v) s =
        .next { s with fw := { s.fw with image := 2, floor := max s.fw.floor (manEpoch s.fw.manB) } })
      ∧ ∀ i m, s.fallbackMark = some (i, m) →
        (m.st = .set → ∃ t, exec (.fwConfirmWrite v) s = .next t
          ∧ t.fw = { s.fw with image := 2, floor := max s.fw.floor (manEpoch s.fw.manB) } ∧ t.mark i = none
          ∧ t = { s with fw := t.fw, mrd := t.mrd })
        ∧ (m.st ≠ .set → exec (.fwConfirmWrite v) s = .next s)))
  ∧ ∀ s : State, s.isRun = true → s.fw.image = 2 →
    ∃ t, exec .slotCopyDone s = .next t
      ∧ t.fw = { s.fw with
        image := 0, slotB := 0, manA := s.fw.manB, slotA := some s.fw.bytesB, manB := [], pieces := [], parts := [], bytesB := [] }
      ∧ tget 0 t.evSeq srcThimble = (tget 0 s.evSeq srcThimble + 1) % 2 ^ 32 ∧ OnlyReports { s with fw := t.fw } t

/-- Crash dumps: one dump is kept, a later one is lost and counted; FW_DUMP_READ writes the bytes asked for and with bit 0
erases the dump; with bit 1 it begins a capture of every core (R367, R368, R369).

Core faults, of a core with no operation in flight: a corrected one changes nothing, a cleared one is counted. A lasting one is
counted, begins a capture, and keeps the core's unit from being ARMED; a module
reset follows one of the scheduler, power or Thimble core; a second one within 60 s takes its Panel or GRU out of service;
the watchdog's differs in its cause (R26, R314, R367, R400). -/
def Obligations.CoreFaultsAndDumps : Prop :=
  ((∀ (s : State) (id : Nat) (o : Op) (x : Dump), Waits s 0x95 id o → bit (byteAt o.bytes 8) 1 = false →
     dumpFieldOk o.bytes = true → s.reachable 0 = true → s.fw.dump = some x →
     ∃ t l, exec (.fwDumpRead id) s = .next t ∧ Ended t id stOk
       ∧ t.out = s.out ++ .hostWrite 0 (le o.bytes 16 8)
           ((List.range (le o.bytes 32 4)).map (fun i => x.byte (le o.bytes 24 8 + i))) :: l
       ∧ t.fw = { s.fw with dump := if bit (byteAt o.bytes 8) 0 then none else some x } ∧ OnlyReports { s with fw := t.fw } t)
   ∧ (∀ (s : State) (id : Nat) (o : Op), Waits s 0x95 id o → bit (byteAt o.bytes 8) 1 = true → dumpFieldOk o.bytes = true →
     s.fw.capture = none → exec (.fwDumpCapture id) s =
       .next ({ s with fw := { s.fw with capture := some (3, 0xFFFF, some id) } }.running id o))
   ∧ ∀ (s : State) (cause core : Nat) (op : Option Nat), s.fw.capture = some (cause, core, op) →
     (s.fw.resetDue = false → ∃ t, exec .crashDumpCaptureDone s = .next t ∧ t.fw.capture = none
       ∧ (s.fw.dump = none → t.fw.dump = some ⟨cause, core, s.now, s.fw.dumpNo, sha384 s.fw.manifest⟩)
       ∧ (∀ d, s.fw.dump = some d → t.fw.dump = some d)
       ∧ (∀ id, op = some id → Ended t id stOk)
       ∧ tget 0 t.evSeq srcThimble = (tget 0 s.evSeq srcThimble + 1) % 2 ^ 32 ∧ OnlyReports { s with fw := t.fw } t)
     ∧ (s.fw.resetDue = true → s.isRun = true → ∃ t, exec .crashDumpCaptureDone s = .next t ∧ t.fw.capture = none
       ∧ t.fw.resetDue = false ∧ t.pwr.phase = .holdup ∧ t.pwr.selfRst = true))
  ∧ ((∀ (s : State) (core : CoreNo), s.isRun = true → (core < 64 → (s.panel core).run = none) →
       (68 ≤ core → core < 84 → (tget gruInit s.grus (core - 68)).batch = []) →
       exec (.coreFault core .corrected) s = .next s ∧ exec (.watchdogExpiry core .corrected) s = .next s
       ∧ exec (.coreFault core .transient) s = .next (s.countError (s.corePart core) cntTransient)
       ∧ exec (.watchdogExpiry core .transient) s = .next (s.countError (s.corePart core) cntTransient))
     ∧ ∀ (s : State) (core : CoreNo) (cause : Nat) (c : Instr),
       (cause, c) ∈ [(1, Instr.coreFault core .lasting), (2, .watchdogExpiry core .lasting)] → s.isRun = true →
       s.fw.capture = none → (core < 64 → (s.panel core).run = none) →
       (68 ≤ core → core < 84 → (tget gruInit s.grus (core - 68)).batch = []) →
       ((∀ t0, tfind s.fw.coreAt core = some t0 → t0 + 60000000000 ≤ s.now) →
         exec c s = .next ({ s.countError (s.corePart core) cntLasting with
           fw := { s.fw with
             capture := some (cause, min core 67, none), coreAt := tset core s.now s.fw.coreAt
             resetDue := s.fw.resetDue || (decide (64 ≤ core) && decide (core ≤ 67)) } }.failArming (coreUnit core)))
       ∧ (∀ t0, tfind s.fw.coreAt core = some t0 → s.now < t0 + 60000000000 → ∃ t, exec c s = .next t
         ∧ (core < 64 → (t.panel core).health = 3)
         ∧ (68 ≤ core → core < 84 → (tget gruInit t.grus (core - 68)).offline = true)))

/-! ## Fabric descriptors -/

/-- FAB_SEND, FAB_WRITE, FAB_READ and FAB_FLUSH start one message to their peer under a free MSG_ID with its generation
raised by one, every packet of it unsent; one that a row of R301 refuses ends with that status and counts at its
CNT_ON_DONE; a flush waits behind the descriptors of its peer (R281, R284, R293, R295, R297, R300, R301).

FAB_CANCEL ends what its TAG names, the one submitted first: a descriptor nothing of which has started, a stored descriptor
that is armed, or one that has fired and waits; a started one is too late, and a TAG that names nothing is not found
(R299). -/
def Obligations.FabricTransfersStartAndCancel : Prop :=
  (∀ (s : State) (c : Instr) (opc id : Nat) (o : Op),
     (opc, c) ∈ [(0x70, Instr.fabSend id), (0x71, .fabWrite id), (0x72, .fabRead id), (0x73, .fabFlush id)] →
     Waits s opc id o →
     (opc = 0x73 → s.peerBusy id o = true → exec c s = .next s)
     ∧ ((opc = 0x73 → s.peerBusy id o = false) → s.transferStatus o.vf o.bytes ≠ stOk →
       exec c s = .next (s.finishFab id (s.transferStatus o.vf o.bytes)))
     ∧ ∀ x mid, (opc = 0x73 → s.peerBusy id o = false) → s.transferStatus o.vf o.bytes = stOk →
       s.peer o.vf (le o.bytes 8 2) = some x → s.fab.msgs.length < 65536 → s.pickId o.vf = some mid →
       ∃ t m, exec c s = .next t ∧ t.op id = some { o with phase := .running } ∧ tfind t.fab.msgs s.fab.nextMsg = some m
         ∧ m.kind.typ = (if opc = 0x73 then pxtFlush else opc - 0x6F) ∧ m.op = some id ∧ m.part = o.vf ∧ m.dst = x.addr
         ∧ m.dstPart = x.part ∧ m.job = x.job ∧ m.msgId = mid
         ∧ m.gen = (tget 0 s.fab.idGen (o.vf * 65536 + mid) + 1) % 256 ∧ m.len = le o.bytes 24 4
         ∧ (opc ≠ 0x73 → m.tier = (addrAt o.bytes 16).tier ∧ m.src = (addrAt o.bytes 16).addr)
         ∧ m.unsent = (if opc ≤ 0x71 then List.range (ceilDiv m.len 4096) else [0]) ∧ m.unacked = [] ∧ m.started = false
         ∧ (∀ k, k ≠ s.fab.nextMsg → tfind t.fab.msgs k = tfind s.fab.msgs k) ∧ t = { s with fab := t.fab, ops := t.ops })
  ∧ (∀ (s : State) (id : Nat) (o : Op), Waits s 0x74 id o →
       let tag := le o.bytes 16 4
       let ops := s.cancelOps id o.fn tag
       ((zeroAt o.bytes 8 8 && zeroAt o.bytes 20 44) = false → exec (.fabCancel id) s = .next (s.finish id stFabField))
       ∧ (zeroAt o.bytes 8 8 = true → zeroAt o.bytes 20 44 = true →
         (ops = [] → s.cancelFired o.fn tag = none → s.cancelArmed o.fn tag = none →
           exec (.fabCancel id) s = .next (s.finish id stFabNotFound))
         ∧ (∀ x, ops = [] → s.cancelFired o.fn tag = some x → ∃ t, exec (.fabCancel id) s = .next t ∧ Ended t id stOk
           ∧ SameMemory s t ∧ (byteAt x.bytes 0 < 0x70 ∨ 0x73 < byteAt x.bytes 0 ∨ le x.bytes 10 2 = 0 →
             (t.fn o.fn).fetched = (s.fn o.fn).fetched.erase x))
         ∧ (∀ a, (∀ k ∈ ops.head?, a.seq < k) → s.cancelFired o.fn tag = none ∨ ops ≠ [] → s.cancelArmed o.fn tag = some a →
           ∃ t, exec (.fabCancel id) s = .next t ∧ Ended t id stOk ∧ (∀ y ∈ t.fab.armed, y.seq ≠ a.seq) ∧ SameMemory s t)
         ∧ ∀ k l, ops = k :: l → (∀ a ∈ s.cancelArmed o.fn tag, k ≤ a.seq) →
           (s.fab.msgs.find? (fun (e : Nat × Msg) => e.2.op == some k) = none →
             ∃ t, exec (.fabCancel id) s = .next t ∧ Ended t id stOk ∧ SameMemory s t
               ∧ (s.armedClean → Ended t k stFabCancelled))
           ∧ ∀ i m, s.fab.msgs.find? (fun (e : Nat × Msg) => e.2.op == some k) = some (i, m) →
             (m.started = true ∨ m.rnrWait = true → exec (.fabCancel id) s = .next (s.finish id stFabTooLate))
             ∧ (m.started = false → m.rnrWait = false → tfind s.fab.msgs i = some m → m.kind ≠ .readResp → s.noUnbind m.job →
               ∃ t, exec (.fabCancel id) s = .next t ∧ Ended t id stOk ∧ tfind t.fab.msgs i = none ∧ SameMemory s t
                 ∧ (s.armedClean → Ended t k stFabCancelled))))

/-- FAB_COUNTER sets a trigger counter or adds to it and no other; FAB_TRIGGER_ARM arms its stored descriptor; whatever its
counter has reached is read, waits for dispatch and is armed no more (R297, R298, R300). What a stored descriptor that cannot
be read does is the model's choice (notes/assumptions/76.md), of which this says nothing.

FAB_PEER sets and clears an entry of the partition's peer table, its error mark clear; FAB_JOB binds a job to a usable
slot, with TX_SEQ at 1 for a key that it never had, and unbinds it once no message of it is in flight, sent or arriving,
a FLUSH still unanswered among them, as the model reads R300 (R274, R276, R300; notes/assumptions/88.md). -/
def Obligations.FabricTables : Prop :=
  ((∀ (s : State) (c : Instr) (id which : Nat) (o : Op), (which, c) ∈ [(0, Instr.fabCounterSet id), (1, .fabCounterAdd id)] →
     Waits s 0x76 id o → le o.bytes 8 2 < 1024 → byteAt o.bytes 10 = which → zeroAt o.bytes 11 1 = true →
     zeroAt o.bytes 16 48 = true → s.armedClean →
     ∃ t, exec c s = .next t ∧ Ended t id stOk
       ∧ t.trigger o.vf (le o.bytes 8 2)
         = ((if which = 0 then 0 else s.trigger o.vf (le o.bytes 8 2)) + le o.bytes 12 4) % 2 ^ 32
       ∧ (∀ k, k ≠ o.vf * 1024 + le o.bytes 8 2 → tget 0 t.fab.trig k = tget 0 s.fab.trig k)
       ∧ (∀ a ∈ t.fab.armed, a ∈ s.fab.armed
         ∧ ¬ (a.part = o.vf ∧ a.counter = le o.bytes 8 2 ∧ reached (t.trigger o.vf (le o.bytes 8 2)) a.thr = true))
       ∧ (∀ a ∈ s.fab.armed, a.part = o.vf → a.counter = le o.bytes 8 2 →
         reached (t.trigger o.vf (le o.bytes 8 2)) a.thr = true →
         ∃ x ∈ (t.fn (o.vf + 1)).fetched, x.src = .trigger ∧ x.bytes = s.ptBytes a.part a.tier a.addr 64 ∧ x.err = stOk)
       ∧ OnlyReports { s with fab := t.fab } t)
   ∧ ∀ (s : State) (id : Nat) (o : Op), Waits s 0x75 id o → o.fn ≠ 0 → le o.bytes 8 2 < 1024 → zeroAt o.bytes 10 2 = true →
     zeroAt o.bytes 24 40 = true → (addrAt o.bytes 16).plain = true →
     (s.fab.armed.filter (fun (x : Armed) => x.part == o.vf)).length < 4096 →
     s.lockStatus o.vf (addrAt o.bytes 16).tier (addrAt o.bytes 16).addr 64 = stOk →
     (reached (s.trigger o.vf (le o.bytes 8 2)) (le o.bytes 12 4) = false →
       ∃ t, exec (.fabTriggerArm id) s = .next t ∧ Ended t id stOk ∧ OnlyReports { s with fab := t.fab } t
         ∧ t.fab.armed = s.fab.armed
           ++ [⟨o.vf, le o.bytes 8 2, le o.bytes 12 4, (addrAt o.bytes 16).tier, (addrAt o.bytes 16).addr, id⟩])
     ∧ (reached (s.trigger o.vf (le o.bytes 8 2)) (le o.bytes 12 4) = true →
       s.clean o.vf (addrAt o.bytes 16).tier (addrAt o.bytes 16).addr 64 →
       ∃ t, exec (.fabTriggerArm id) s = .next t ∧ Ended t id stOk ∧ OnlyReports { s with fab := t.fab } t
         ∧ (∀ a ∈ t.fab.armed, a.seq ≠ id)
         ∧ ∃ n, (t.fn o.fn).fetched = (s.fn o.fn).fetched
           ++ [⟨n, s.ptBytes o.vf (addrAt o.bytes 16).tier (addrAt o.bytes 16).addr 64, .trigger, stOk⟩]))
  ∧ ((∀ (s : State) (id : Nat) (o : Op), Waits s 0x7A id o → peerFields o.bytes = true →
       (byteAt o.bytes 32 = 0 → ∃ t, exec (.fabPeerSet id) s = .next t ∧ Ended t id stOk
         ∧ t.peer o.vf (le o.bytes 8 2)
           = some ⟨BitVec.ofNat 128 (beNat (slice o.bytes 16 16)), byteAt o.bytes 10, le o.bytes 12 2, false⟩
         ∧ (∀ k, k ≠ o.vf * 4096 + le o.bytes 8 2 → tfind t.fab.peers k = tfind s.fab.peers k)
         ∧ OnlyReports { s with fab := { s.fab with peers := t.fab.peers } } t)
       ∧ (byteAt o.bytes 32 = 1 → ∃ t, exec (.fabPeerClear id) s = .next t ∧ Ended t id stOk
         ∧ t.peer o.vf (le o.bytes 8 2) = none
         ∧ (∀ k, k ≠ o.vf * 4096 + le o.bytes 8 2 → tfind t.fab.peers k = tfind s.fab.peers k)
         ∧ OnlyReports { s with fab := { s.fab with peers := t.fab.peers } } t))
     ∧ ∀ (s : State) (id : Nat) (o : Op), Waits s 0x7B id o → jobFields o.bytes = true →
       let job := le o.bytes 8 2
       let k := s.slot (byteAt o.bytes 10)
       let mine := ∀ j ∈ tfind s.fab.jobs job, j.part = o.vf
       let busy := (∃ m ∈ s.fab.msgs, m.2.job = job) ∨ (∃ x ∈ s.fab.rx, x.2.job = job ∧ x.2.st = .opened)
         ∨ ∃ w ∈ s.fab.flushes, w.2.job = job
       (byteAt o.bytes 11 = 0 →
         (∀ j, tfind s.fab.jobs job = some j → j.part ≠ o.vf → exec (.fabJobBind id) s = .next (s.finish id stFabBusy))
         ∧ (mine → s.noUnbind job → k.usable engPxt o.vf = false → exec (.fabJobBind id) s = .next (s.finish id stFabNoKey))
         ∧ (mine → s.noUnbind job → k.usable engPxt o.vf = true → ∃ t, exec (.fabJobBind id) s = .next t ∧ Ended t id stOk
           ∧ tfind t.fab.jobs job = some ⟨o.vf, byteAt o.bytes 10, s.jobSeq job k.key⟩
           ∧ (tfind s.fab.jobs job = none → tfind s.fab.jobSeqs job = none → s.jobSeq job k.key = 1)
           ∧ OnlyReports { s with fab := { s.fab with jobs := t.fab.jobs } } t))
       ∧ (byteAt o.bytes 11 = 1 →
         (tfind s.fab.jobs job = none → exec (.fabJobUnbind id) s = .next (s.finish id stFabField))
         ∧ ∀ j, tfind s.fab.jobs job = some j → j.part = o.vf → s.noUnbind job →
           ∃ t, exec (.fabJobUnbind id) s = .next t ∧ OnlyReports { s with fab := t.fab } t
             ∧ (¬ busy → Ended t id stOk ∧ tfind t.fab.jobs job = none)
             ∧ (busy → t.op id = some { o with phase := .running } ∧ tfind t.fab.jobs job = some j)))

/-- FAB_WINDOW CREATE makes a window live with WGEN one above the index's last; one that a row of R301 refuses ends with that
status; REVOKE stops it and completes at once where nothing admitted through it is open, else it waits (R288, R291, R301).

FAB_RQ creates a queue with every buffer free, takes back every buffer of a returned chain, and deletes a queue on which
no message is open and no record waits (R285, R300). -/
def Obligations.WindowsAndQueues : Prop :=
  ((∀ (s : State) (id : Nat) (o : Op), Waits s 0x78 id o → windowFields o.bytes = true → byteAt o.bytes 10 = 0 →
     s.windowStatus o.vf o.bytes = stOk →
     ∃ t w, exec (.fabWindowCreate id) s = .next t ∧ Ended t id stOk ∧ t.window o.vf (le o.bytes 8 2) = some w
       ∧ w.live = true ∧ w.perm = byteAt o.bytes 11 ∧ w.peer = le o.bytes 12 2 ∧ w.counter = le o.bytes 14 2
       ∧ w.tier = (addrAt o.bytes 16).tier ∧ w.base = (addrAt o.bytes 16).addr ∧ w.len = le o.bytes 24 8
       ∧ w.region = le o.bytes 32 2 ∧ w.form = byteAt o.bytes 34 ∧ w.revoke = none
       ∧ (s.window o.vf (le o.bytes 8 2) = none → w.wgen = 1)
       ∧ (∀ x, s.window o.vf (le o.bytes 8 2) = some x → w.wgen = (x.wgen + 1) % 65536)
       ∧ (∀ k, k ≠ o.vf * 2048 + le o.bytes 8 2 → tfind t.fab.windows k = tfind s.fab.windows k)
       ∧ OnlyReports { s with fab := { s.fab with windows := t.fab.windows } } t)
   ∧ (∀ (s : State) (id : Nat) (o : Op), Waits s 0x78 id o → windowFields o.bytes = true → byteAt o.bytes 10 = 0 →
     s.windowStatus o.vf o.bytes ≠ stOk →
     exec (.fabWindowCreate id) s = .next (s.finish id (s.windowStatus o.vf o.bytes)))
   ∧ ∀ (s : State) (id : Nat) (o : Op) (w : Window), Waits s 0x78 id o → windowFields o.bytes = true →
     byteAt o.bytes 10 = 1 → s.window o.vf (le o.bytes 8 2) = some w → w.live = true →
     ∃ t, exec (.fabWindowRevoke id) s = .next t
       ∧ (s.windowQuiet o.vf (le o.bytes 8 2) = true → Ended t id stOk
         ∧ t.window o.vf (le o.bytes 8 2) = some { w with live := false, revoke := none })
       ∧ (s.windowQuiet o.vf (le o.bytes 8 2) = false → t.op id = some { o with phase := .running }
         ∧ t.window o.vf (le o.bytes 8 2) = some { w with live := false, revoke := some id })
       ∧ OnlyReports { s with fab := { s.fab with windows := t.fab.windows } } t)
  ∧ ((∀ (s : State) (id : Nat) (o : Op), Waits s 0x79 id o → byteAt o.bytes 9 = 0 → s.rqStatus o.vf o.bytes = stOk →
       ∃ t, exec (.fabRqCreate id) s = .next t ∧ Ended t id stOk
         ∧ t.rxq o.vf (byteAt o.bytes 8) = some ⟨byteAt o.bytes 10, le o.bytes 12 4, (addrAt o.bytes 16).tier,
           (addrAt o.bytes 16).addr, List.range (le o.bytes 12 4), le o.bytes 24 2, none⟩
         ∧ OnlyReports { s with fab := { s.fab with queues := t.fab.queues } } t)
     ∧ (∀ (s : State) (id : Nat) (o : Op) (q : RxQueue), Waits s 0x79 id o → byteAt o.bytes 9 = 1 →
       s.rxq o.vf (byteAt o.bytes 8) = some q → rqFields o.bytes = true → le o.bytes 12 4 < q.count →
       ∃ t x, exec (.fabRqReturn id) s = .next t ∧ Ended t id stOk ∧ t.rxq o.vf (byteAt o.bytes 8) = some x
         ∧ x = { q with free := x.free } ∧ le o.bytes 12 4 ∈ x.free ∧ (∀ b ∈ q.free, b ∈ x.free)
         ∧ (∀ b ∈ s.chainOf o.vf q q.count (le o.bytes 12 4), b ∈ x.free)
         ∧ (∀ b ∈ x.free, b ∈ q.free ∨ b ∈ s.chainOf o.vf q q.count (le o.bytes 12 4))
         ∧ OnlyReports { s with fab := { s.fab with queues := t.fab.queues } } t)
     ∧ ∀ (s : State) (id : Nat) (o : Op) (q : RxQueue), Waits s 0x79 id o → byteAt o.bytes 9 = 2 →
       s.rxq o.vf (byteAt o.bytes 8) = some q → rqFields o.bytes = true → zeroAt o.bytes 12 4 = true → q.delOp = none →
       (byteAt o.bytes 8 = 0 → s.roundBusy o.vf = false) →
       let busy := s.fab.rx.any (fun (e : Nat × RxEntry) => e.2.typ == pxtSend && e.2.st == .opened && e.2.part == o.vf
         && e.2.queue == byteAt o.bytes 8) || (byteAt o.bytes 8 == 0 && !(s.ing o.vf).queue.isEmpty)
       ∃ t, exec (.fabRqDelete id) s = .next t ∧ OnlyReports { s with fab := { s.fab with queues := t.fab.queues } } t
         ∧ (busy = false → Ended t id stOk ∧ t.rxq o.vf (byteAt o.bytes 8) = none)
         ∧ (busy = true → t.op id = some { o with phase := .running }
           ∧ t.rxq o.vf (byteAt o.bytes 8) = some { q with delOp := some id }))

/-! ## Packets -/

/-- A packet that PXT_TRANSMIT sends opens at the endpoint that it is sent to: the receiver's pair key and nonce give back
the bytes sent; TX_SEQ of the job rises by one (R275, R276, R278). -/
def Obligations.SentPacketsOpenAtTheirEndpoint : Prop :=
  ∀ (s r : State) (p job dstPart port : Nat) (dst : BitVec 128) (x : Outgoing) (body key : Bytes) (j : Job),
    p < 32 → dstPart < 32 → job < 65536 → tfind s.fab.jobs job = some j → s.jobKey job = some key →
    r.ownAddr = dst →
    ∃ src k, (s.sendPacket p job dst dstPart port x body).out = s.out ++ [.packet src k] ∧ 49152 ≤ src
      ∧ k.dst = dst ∧ k.src = s.ownAddr ∧ k.hdr.dstPart.toNat = dstPart ∧ k.hdr.srcPart.toNat = p
      ∧ k.hdr.job.toNat = job ∧ k.body.length = body.length ∧ r.openUnder k key = some body
      ∧ tfind (s.sendPacket p job dst dstPart port x body).fab.jobs job = some { j with txSeq := j.txSeq + 1 }

/-- A message with room in its congestion window sends its next packet: it opens at its endpoint to the bytes of its source;
without a usable job key it ends with ST_FAB_NO_KEY (R275, R277, R281, R296, R329). One whose source has come to lie under a
round, a key set or a sealed range sends no byte of it: a response answers NACK ACCESS, another ends with the lock's status
(R12, R100, R292; notes/assumptions/67.md). -/
def Obligations.MessagesTransmit : Prop :=
  (∀ (s s1 : State) (i c pkt port : Nat) (l : List Nat) (m : Msg) (key : Bytes), tfind s.fab.msgs i = some m →
    m.unsent = pkt :: l → s.isRun = true → port < 8 → (tget portInit s.fab.ports port).up = true → m.rnrWait = false →
    s.jobKey m.job = some key → s.ctxFor m.dst m.dstPart = some (c, s1) →
    (∀ x, tfind s1.fab.ctxs c = some x → x.flight < x.cwnd) →
    let a := m.src + 4096 * pkt
    let n := m.bytesOf pkt
    ((m.kind.carries = true → s.sourceLock m a n = stOk ∧ s.clean m.part m.tier a n) →
      ∃ t src k x y pre, exec (.pxtTransmit i port) s = .next t ∧ t.out = s.out ++ pre ++ [.packet src k]
        ∧ (m.ccWait = none → pre = []) ∧ k.port = port ∧ k.dst = m.dst ∧ k.hdr.typ.toNat = m.kind.typ
        ∧ k.hdr.pktIndex.toNat = pkt % 65536 ∧ k.hdr.msgId.toNat = m.msgId % 65536 ∧ k.hdr.gen.toNat = m.gen % 256
        ∧ (m.part < 256 → m.dstPart < 256 → m.job < 65536 → ∀ r : State, r.ownAddr = m.dst →
          r.openUnder k key = some (if m.kind.carries then s.ptBytes m.part m.tier a n else []))
        ∧ tfind t.fab.msgs i = some x ∧ x.started = true ∧ pkt ∉ x.unsent ∧ (pkt, s.now) ∈ x.unacked ∧ x.ctx = some c
        ∧ tfind t.fab.ctxs c = some y ∧ y.flight = (match tfind s1.fab.ctxs c with
          | some z => z.flight
          | none => 0) + n
        ∧ OnlyReports { s with fab := t.fab, free := t.free } t)
    ∧ (m.kind.carries = true → s.sourceLock m a n ≠ stOk → ∃ t, exec (.pxtTransmit i port) s = .next t
      ∧ tfind t.fab.msgs i = none
      ∧ (m.kind = .readResp → ∃ src k, .packet src k ∈ t.out ∧ k.hdr.typ.toNat = 6 ∧ k.hdr.code = 3 ∧ k.dst = m.dst)
      ∧ (m.kind ≠ .readResp → (∀ src k, Output.packet src k ∈ t.out → Output.packet src k ∈ s.out)
        ∧ (s.armedClean → s.noUnbind m.job → ∀ id, m.op = some id → Ended t id (s.sourceLock m a n)))))
  ∧ ∀ (s : State) (i pkt port : Nat) (l : List Nat) (m : Msg), tfind s.fab.msgs i = some m → m.unsent = pkt :: l →
    s.isRun = true → port < 8 → (tget portInit s.fab.ports port).up = true → m.rnrWait = false → s.jobKey m.job = none →
    ∃ t, exec (.pxtTransmit i port) s = .next t ∧ tfind t.fab.msgs i = none
      ∧ (s.armedClean → s.noUnbind m.job → ∀ id, m.op = some id → Ended t id stFabNoKey)

/-- A packet that fails step 1, 2 or 3 of R280, or the duplicate filter, is counted and discarded: nothing goes back but the
ACK of a duplicate (R280, R283). -/
def Obligations.FailingPacketsAreDropped : Prop :=
  ∀ (s : State) (k : Packet) (typ : Nat) (c : Instr), (typ, c) ∈ receives k → Reaches s typ k →
    let p := k.hdr.dstPart.toNat
    ((∀ j, tfind s.fab.jobs k.hdr.job.toNat = some j → j.part ≠ p) → exec c s = .next (s.countMod cntFabNoJob))
    ∧ ∀ j, tfind s.fab.jobs k.hdr.job.toNat = some j → j.part = p →
      ((s.jobKey k.hdr.job.toNat).bind (fun key => s.openUnder k key) = none →
        ∃ t, exec c s = .next t ∧ OnlyReports { s with fab := { s.fab with authAt := t.fab.authAt } } t
          ∧ (∀ t0, tfind s.fab.authAt p = some t0 → s.now < t0 + 1000000 → t = s.countPart p cntFabAuthFail)
          ∧ (tfind s.fab.authAt p = none → tget 0 t.evSeq (srcPort k.port) = (tget 0 s.evSeq (srcPort k.port) + 1) % 2 ^ 32))
      ∧ (∀ plain, (s.jobKey k.hdr.job.toNat).bind (fun key => s.openUnder k key) = some plain →
        (freshTime s.now k.hdr.txTime.toNat = false → exec c s = .next (s.countMod cntFabAged))
        ∧ (freshTime s.now k.hdr.txTime.toNat = true → typ ∉ [5, 6, 8] → ∀ i e, s.rxFind k = some (i, e) →
          (k.hdr.gen.toNat = e.gen → e.st = .abandoned → exec c s = .next (s.countPart p cntFabStale))
          ∧ (k.hdr.gen.toNat = e.gen → (e.st = .complete ∨ e.st = .opened ∧ e.got.contains k.hdr.pktIndex.toNat = true) →
            exec c s = .next ((s.countPart p cntFabDup).ackOne k))
          ∧ (k.hdr.gen.toNat ≠ e.gen → seqAfter 8 k.hdr.gen.toNat e.gen = false →
            exec c s = .next (s.countPart p cntFabStaleGen))))

/-! ## Packets that arrive, the transport's timers -/

/-- At the target: the opening packet of a SEND takes a free buffer and is placed in it, and a SEND of one packet is announced;
the opening packet of a WRITE is placed through its window, or its addends go to the window's region; a READ_REQ is answered
by a response over the bytes that it names; a FLUSH waits for the addends that came before it and is answered with the failure
count, which is then cleared (R285, R286, R289, R290, R292, R295). -/
def Obligations.TargetReceives : Prop :=
  (∀ (s : State) (k : Packet) (plain : Bytes) (q : RxQueue) (err : Option ErrClass), Arrives s 1 k plain →
    s.rxFind k = none → s.fab.rx.length < 65536 → k.hdr.queue.toNat < 64 →
    s.rxq k.hdr.dstPart.toNat k.hdr.queue.toNat = some q → q.delOp = none → k.hdr.msgLen.toNat ≤ q.count * q.size →
    ceilDiv k.hdr.msgLen.toNat q.size ≤ q.free.length →
    q.free ≠ [] → (k.hdr.queue.toNat = 0 → s.ingFull k.hdr.dstPart.toNat = false) →
    let p := k.hdr.dstPart.toNat
    let off := 4096 * k.hdr.pktIndex.toNat
    (∀ b ∈ q.free, s.lockStatus p q.tier (q.base + b * q.size + off % q.size) plain.length = stOk) →
    1 < packetCount k.hdr.msgLen.toNat →
    ∃ t e b x, exec (.pxtSendReceive k err) s = .next t ∧ tfind t.fab.rx s.fab.nextRx = some e ∧ e.st = .opened
      ∧ e.got = [k.hdr.pktIndex.toNat] ∧ e.ack = [(k.hdr.pktIndex.toNat, k.hdr.txTime.toNat)]
      ∧ e.bufs = [(off / q.size, b)] ∧ b ∈ q.free
      ∧ t.rxq p k.hdr.queue.toNat = some x ∧ b ∉ x.free ∧ (∀ y ∈ x.free, y ∈ q.free)
      ∧ MemoryAs t (s.memWrite p q.tier (q.base + b * q.size + off % q.size) plain).1)
  ∧ (∀ (s : State) (k : Packet) (plain : Bytes) (q : RxQueue) (err : Option ErrClass), Arrives s 1 k plain →
    s.rxFind k = none → s.fab.rx.length < 65536 → 0 < k.hdr.queue.toNat → k.hdr.queue.toNat < 64 →
    s.rxq k.hdr.dstPart.toNat k.hdr.queue.toNat = some q → q.delOp = none → 12 ≤ q.log → 0 < q.count → q.free ≠ [] →
    k.hdr.msgLen.toNat ≤ 4096 → s.noUnbind k.hdr.job.toNat → s.armedClean →
    let p := k.hdr.dstPart.toNat
    let h := s.fn (p + 1)
    (∀ b ∈ q.free, s.lockStatus p q.tier (q.base + b * q.size) plain.length = stOk
      ∧ s.clean p q.tier (q.base + b * q.size) plain.length ∧ s.clean p q.tier (q.chain + 4 * b) 4) →
    h.live = true → h.heldC = [] → h.stuck = [] → h.waitC = [] → ringRoom h.rs.cqLog h.rs.cqProd h.rs.cqHead = true →
    ∃ t e b l, exec (.pxtSendReceive k err) s = .next t ∧ tfind t.fab.rx s.fab.nextRx = some e ∧ e.st = .complete ∧ b ∈ q.free
      ∧ MemoryAs t ((s.memWrite p q.tier (q.base + b * q.size) plain).1.memWrite p q.tier (q.chain + 4 * b)
        (leBytes 4 0xFFFFFFFF)).1
      ∧ t.out = s.out ++ .hostWrite (p + 1) (h.rs.cqBase + 32 * h.rs.cqProd) (cplBytes h
        ⟨k.hdr.queue.toNat, stOk, 0x7E, 0, leBytes 4 b ++ leBytes 4 k.hdr.msgLen.toNat, s.now, false, none⟩ h.rs.cqPass) :: l)
  ∧ (∀ (s : State) (k : Packet) (plain : Bytes) (w : Window), Arrives s 2 k plain → s.rxFind k = none →
    s.fab.rx.length < 65536 →
    s.windowFault k (rxNew s.now k) 1 (4096 * k.hdr.pktIndex.toNat) plain.length = 0 →
    s.window k.hdr.dstPart.toNat (field k.hdr.window.toNat 0 11) = some w →
    (∀ x ∈ s.xfers, x.2.src ≠ .pxt s.fab.nextRx) →
    let p := k.hdr.dstPart.toNat
    let off := 4096 * k.hdr.pktIndex.toNat
    (bit w.perm 2 = false → s.armedClean → ∃ t e, exec (.pxtWriteReceive k) s = .next t
      ∧ tfind t.fab.rx s.fab.nextRx = some e
      ∧ e.got = [k.hdr.pktIndex.toNat] ∧ (e.st = .complete ↔ packetCount k.hdr.msgLen.toNat ≤ 1)
      ∧ MemoryAs t (s.memWrite p w.tier (w.base + k.hdr.aux.toNat + off) plain).1)
    ∧ (bit w.perm 2 = true → ∃ t e y u, exec (.pxtWriteReceive k) s = .next t ∧ tfind t.fab.rx s.fab.nextRx = some e
      ∧ e.got = [k.hdr.pktIndex.toNat] ∧ (e.st = .complete ↔ packetCount k.hdr.msgLen.toNat ≤ 1)
      ∧ s.windowRegion p w = some (y, u) ∧ SameMemory s t
      ∧ (let data := [(k.hdr.pktIndex.toNat, plain)]
        let adds := completed data u off plain.length
        (adds = [] → t.xfers = s.xfers)
        ∧ (adds ≠ [] → ∃ x, tfind t.xfers s.nextX = some x ∧ x.src = .pxt s.fab.nextRx ∧ x.dst = regionDst p w.region y
          ∧ x.rest = adds.map (fun a => (k.hdr.aux.toNat / u + a, addendOf y.kind w.form (kindFmt y.kind)
            ((List.range u).map (fun b => dataByte data (a * u + b)))))))))
  ∧ (∀ (s : State) (k : Packet) (plain : Bytes) (w : Window), Arrives s 3 k plain → s.rxFind k = none →
    s.fab.rx.length < 65536 → s.windowFault k (rxNew s.now k) 0 0 k.hdr.msgLen.toNat = 0 →
    s.window k.hdr.dstPart.toNat (field k.hdr.window.toNat 0 11) = some w →
    s.clean k.hdr.dstPart.toNat w.tier (w.base + k.hdr.aux.toNat) k.hdr.msgLen.toNat →
    ∃ t m, exec (.pxtReadReqReceive k []) s = .next t ∧ tfind t.fab.msgs s.fab.nextMsg = some m ∧ m.kind = .readResp
      ∧ m.op = none ∧ m.part = k.hdr.dstPart.toNat ∧ m.dst = k.src ∧ m.dstPart = k.hdr.srcPart.toNat
      ∧ m.job = k.hdr.job.toNat ∧ m.msgId = k.hdr.msgId.toNat ∧ m.gen = k.hdr.gen.toNat ∧ m.len = k.hdr.msgLen.toNat
      ∧ m.tier = w.tier ∧ m.src = w.base + k.hdr.aux.toNat ∧ m.unsent = List.range (packetCount m.len)
      ∧ t = { s with fab := t.fab })
  ∧ (∀ (s : State) (k : Packet) (plain : Bytes), Arrives s 7 k plain → s.rxFind k = none → s.fab.rx.length < 65536 →
    ∃ t w, exec (.pxtFlushReceive k) s = .next t ∧ tfind t.fab.flushes s.fab.nextFl = some w ∧ w.src = k.src
      ∧ w.srcPart = k.hdr.srcPart.toNat ∧ w.job = k.hdr.job.toNat ∧ w.part = k.hdr.dstPart.toNat
      ∧ w.msgId = k.hdr.msgId.toNat ∧ w.gen = k.hdr.gen.toNat
      ∧ (∀ x, x ∈ w.before ↔ ∃ y n e, (x, y) ∈ s.xfers ∧ y.src = .pxt n ∧ tfind t.fab.rx n = some e ∧ e.src = w.src
        ∧ e.srcPart = w.srcPart ∧ e.job = w.job ∧ e.part = w.part)
      ∧ t = { s with fab := t.fab })
  ∧ ∀ (s : State) (f port : Nat) (w : FlushWait), tfind s.fab.flushes f = some w → s.outPort w.port = some port →
    (s.jobKey w.job).isSome = true →
    ((∃ x ∈ w.before, (tfind s.xfers x).isSome = true) → exec (.pxtFlushRespSend f) s = .next s)
    ∧ ((∀ x ∈ w.before, tfind s.xfers x = none) → s.noUnbind w.job →
      ∃ t src k, exec (.pxtFlushRespSend f) s = .next t ∧ t.out = s.out ++ [.packet src k] ∧ k.hdr.typ.toNat = 8
        ∧ k.dst = w.src ∧ k.hdr.queue.toNat = s.failCount w.part w.src w.srcPart % 2 ^ 32
        ∧ t.failCount w.part w.src w.srcPart = 0 ∧ tfind t.fab.flushes f = none ∧ t = { s with fab := t.fab, out := t.out })

/-- At the initiator: an ACK takes packets from what is unacknowledged, and the last one ends the message; a NACK makes the
message wait, and while it waits it heeds neither, or ends it with the status of its code, a violation counted; the last
READ_RESP ends a FAB_READ whose bytes are placed; a FLUSH_RESP ends its FLUSH and clears the error mark, which an ERROR sets
(R282, R290, R292, R293, R294, R295). -/
def Obligations.InitiatorReceives : Prop :=
  (∀ (s : State) (k : Packet) (plain : Bytes) (i : Nat) (m : Msg), Arrives s 5 k plain → s.answered k = some (i, m) →
    tfind s.fab.msgs i = some m →
    let un := m.unacked.filter (fun (u : Nat × Nat) => !ackNames k.hdr u.1)
    let us := m.unsent.filter (fun u => !ackNames k.hdr u)
    (m.rnrWait = true → exec (.pxtAckReceive k) s = .next s)
    ∧ (m.rnrWait = false → un ≠ [] ∨ us ≠ [] ∨ m.kind = .readReq ∨ m.kind = .flush → ∃ t, exec (.pxtAckReceive k) s = .next t
      ∧ tfind t.fab.msgs i = some { m with unacked := un, unsent := us, last := s.now }
      ∧ t = { s with fab := t.fab, free := t.free })
    ∧ (m.rnrWait = false → un = [] → us = [] → m.kind ≠ .readReq → m.kind ≠ .flush →
      ∃ t, exec (.pxtAckReceive k) s = .next t ∧ tfind t.fab.msgs i = none ∧ SameMemory s t
        ∧ (s.noUnbind m.job → s.armedClean → ∀ id, m.op = some id → Ended t id m.endStatus)))
  ∧ (∀ (s : State) (k : Packet) (plain : Bytes) (i : Nat) (m : Msg), Arrives s 6 k plain → s.answered k = some (i, m) →
    tfind s.fab.msgs i = some m →
    (m.rnrWait = true → exec (.pxtNackReceive k) s = .next s)
    ∧ (m.rnrWait = false → k.hdr.code = 1 ∨ k.hdr.code = 2 → ∃ t, exec (.pxtNackReceive k) s = .next t
      ∧ tfind t.fab.msgs i = some { m with rnrWait := true, last := s.now, unacked := []
                                           rnrUs := if m.rnrUs = 0 then s.fab.rnr else min (2 * m.rnrUs) 1000 }
      ∧ t = { s with fab := t.fab })
    ∧ ∀ st, m.rnrWait = false →
      (k.hdr.code, st) ∈ [((3 : BitVec 8), stFabRemoteAccess), (4, stSeamClosed), (5, stFabRemoteQueue)] →
      ∃ t, exec (.pxtNackReceive k) s = .next t ∧ tfind t.fab.msgs i = none ∧ SameMemory s t
        ∧ (k.hdr.code ≠ 5 → t = (s.finishMsg i st).countPart k.hdr.dstPart.toNat cntFabAccess)
        ∧ (s.noUnbind m.job → s.armedClean → ∀ id, m.op = some id → Ended t id st))
  ∧ (∀ (s : State) (k : Packet) (plain : Bytes) (i : Nat) (m : Msg), Arrives s 4 k plain → s.rxFind k = none →
    s.fab.rx.length < 65536 → s.ownMsg k .readReq = some (i, m) → tfind s.fab.msgs i = some m →
    m.len = k.hdr.msgLen.toNat → m.code = 0 → let a := m.src + 4096 * k.hdr.pktIndex.toNat
    s.lockStatus m.part m.tier a plain.length = stOk → s.clean m.part m.tier a plain.length → s.armedClean →
    ∃ t, exec (.pxtReadRespReceive k) s = .next t ∧ MemoryAs t (s.memWrite m.part m.tier a plain).1
      ∧ (1 < packetCount m.len → tfind t.fab.msgs i = some m)
      ∧ (packetCount m.len = 1 → tfind t.fab.msgs i = none
        ∧ (s.noUnbind m.job → ∀ id, m.op = some id → Ended t id stOk)))
  ∧ (∀ (s : State) (k : Packet) (plain : Bytes) (i : Nat) (m : Msg) (y : Peer), Arrives s 8 k plain →
    s.ownMsg k .flush = some (i, m) → tfind s.fab.msgs i = some m → s.peer k.hdr.dstPart.toNat m.peer = some y →
    s.noUnbind m.job → s.armedClean →
    ∃ t, exec (.pxtFlushRespReceive k) s = .next t ∧ tfind t.fab.msgs i = none
      ∧ t.peer k.hdr.dstPart.toNat m.peer = some { y with err := false }
      ∧ ∀ id, m.op = some id →
        Ended t id (if k.hdr.queue ≠ 0 ∨ y.err = true then stFabPlacementFailed else stOk))
  ∧ ∀ (s : State) (k : Packet) (plain : Bytes), Arrives s 9 k plain → s.rxFind k = none → s.fab.rx.length < 65536 →
    ∃ t, exec (.pxtErrorReceive k) s = .next t
      ∧ (∀ e ∈ t.fab.peers, e.1 / 4096 = k.hdr.dstPart.toNat → e.2.addr = k.src → e.2.part = k.hdr.srcPart.toNat →
        e.2.job = k.hdr.job.toNat → e.2.err = true)
      ∧ tget 0 t.evSeq (srcPort k.port) = (tget 0 s.evSeq (srcPort k.port) + 1) % 2 ^ 32
      ∧ OnlyReports { s with fab := t.fab } t

/-- The timers of the transport: a packet not acknowledged in time goes again and halves the window, to no less than 4 KiB; a
refused message goes whole, under the next generation of an ID of its own; a message without an answer, or without a port,
ends; an entry that has ended is freed after 4 ms, or once its addends are decided; a window's idle message is abandoned;
ACKs leave; a late failure is counted (R281, R282, R283, R291, R294, R296, R301). Each comes at its time, or just before a mark
that has still to act (notes/assumptions/2.md).

A port that goes down or comes up is reported; DOWNS counts to 65,535; nothing else changes but when the last one went
(R302, R303). -/
def Obligations.FabricTimersAndPorts : Prop :=
  ((∀ (s : State) (i pkt c at0 : Nat) (m : Msg) (x : CcCtx), tfind s.fab.msgs i = some m →
     m.unacked.find? (fun (u : Nat × Nat) => u.1 == pkt) = some (pkt, at0) → m.ctx = some c → tfind s.fab.ctxs c = some x →
     ∃ t y z, exec (.pxtRetransmitTimeout i pkt) s = .next t ∧ tfind t.fab.msgs i = some y ∧ y.unsent = pkt :: m.unsent
       ∧ (∀ u, u ∈ y.unacked ↔ u ∈ m.unacked ∧ u.1 ≠ pkt) ∧ tfind t.fab.ctxs c = some z ∧ z.cwnd = max 4096 (x.cwnd / 2)
       ∧ z.flight = x.flight - m.bytesOf pkt ∧ t.now = (s.atLeast (at0 + max 20000 (min 1000000 (4 * x.srtt)))).now
       ∧ t = { s with fab := t.fab, now := t.now })
   ∧ (∀ (s : State) (i : Nat) (m : Msg), tfind s.fab.msgs i = some m → m.rnrWait = true →
     ∃ t y, exec (.pxtRnrResend i) s = .next t ∧ tfind t.fab.msgs i = some y
       ∧ y.gen = (if m.kind.own then (m.gen + 1) % 256 else m.gen) ∧ y.rnrWait = false ∧ y.unacked = []
       ∧ y.unsent = (List.range m.packets).map ((if m.kind = .error then m.aux / 2 ^ 32 / 4096 else 0) + ·)
       ∧ t.now = (s.atLeast (m.last + 1000 * m.rnrUs)).now ∧ t = { s with fab := t.fab, now := t.now })
   ∧ (∀ (s : State) (i : Nat) (m : Msg), tfind s.fab.msgs i = some m →
     (m.started = true → m.rnrWait = false → ∃ t, exec (.pxtMessageTimeout i) s = .next t ∧ tfind t.fab.msgs i = none
       ∧ t.now = (s.atLeast (m.last + 1000000 * s.fab.timeout)).now
       ∧ (s.noUnbind m.job → s.armedClean → ∀ id, m.op = some id → Ended t id stFabTimeout))
     ∧ (s.anyUp = false → ∃ t, exec (.portsDownTimeout i) s = .next t ∧ tfind t.fab.msgs i = none
       ∧ t.now = (s.atLeast (max s.fab.downAt m.last + 1000000 * s.fab.timeout)).now
       ∧ (s.noUnbind m.job → s.armedClean → ∀ id, m.op = some id → Ended t id stFabPortsDown)))
   ∧ (∀ (s : State) (i : Nat) (e : RxEntry), tfind s.fab.rx i = some e →
     (e.st ≠ .opened → e.gone = false → ∃ t, exec (.receiveEntryExpiry i) s = .next t
       ∧ tfind t.fab.rx i = (if s.rxPending i then some { e with gone := true } else none)
       ∧ t.now = (s.atLeast e.expire).now
       ∧ (∀ k, k ≠ i → tfind t.fab.rx k = tfind s.fab.rx k) ∧ t = { s with fab := t.fab, now := t.now })
     ∧ (e.typ = pxtWrite → e.st = .opened → e.whole = false → ∃ t x, exec (.windowIdleTimeout i) s = .next t
       ∧ tfind t.fab.rx i = some x ∧ x.st = .abandoned ∧ t.now = (s.atLeast (e.last + 1000000 * s.fab.timeout)).now)
     ∧ (∀ port, s.outPort e.port = some port → ∃ t l, exec (.pxtAckTimer i) s = .next t
       ∧ tfind t.fab.rx i = some { e with ack := [] } ∧ t.out = s.out ++ l ∧ t = { s with fab := t.fab, out := t.out }
       ∧ ((s.jobKey e.job).isSome = true → e.ack ≠ [] →
         ∃ src k, .packet src k ∈ l ∧ k.hdr.typ.toNat = 5 ∧ k.dst = e.src ∧ k.port = port))
     ∧ ∀ first len, (e.typ = pxtSend ∨ e.typ = pxtWrite) → e.st ≠ .abandoned → e.gone = false → 0 < len →
       first + len ≤ e.len →
       ∃ t m, exec (.placementFailure i first len) s = .next t
         ∧ t.failCount e.part e.src e.srcPart = s.failCount e.part e.src e.srcPart + 1
         ∧ tfind t.fab.msgs s.fab.nextMsg = some m ∧ m.kind = .error ∧ m.dst = e.src ∧ m.code = 3
         ∧ m.aux = first * 2 ^ 32 + len ∧ SameMemory s t))
  ∧ (∀ (s : State) (port : Nat), port < 8 →
       ((tget portInit s.fab.ports port).up = true → ∃ t, exec (.fabPortDown port) s = .next t
         ∧ tget portInit t.fab.ports port = ⟨false, min ((tget portInit s.fab.ports port).downs + 1) 65535⟩
         ∧ (∀ k, k ≠ port → tget portInit t.fab.ports k = tget portInit s.fab.ports k)
         ∧ tget 0 t.evSeq (srcPort port) = (tget 0 s.evSeq (srcPort port) + 1) % 2 ^ 32
         ∧ OnlyReports { s with fab := { s.fab with ports := t.fab.ports, downAt := t.fab.downAt } } t)
       ∧ ((tget portInit s.fab.ports port).up = false → ∃ t, exec (.fabPortUp port) s = .next t
         ∧ tget portInit t.fab.ports port = ⟨true, (tget portInit s.fab.ports port).downs⟩
         ∧ (∀ k, k ≠ port → tget portInit t.fab.ports k = tget portInit s.fab.ports k)
         ∧ tget 0 t.evSeq (srcPort port) = (tget 0 s.evSeq (srcPort port) + 1) % 2 ^ 32
         ∧ OnlyReports { s with fab := { s.fab with ports := t.fab.ports } } t))

/-! ## The Meridian and the Graticule -/

/-- MARK_SET and PART_CONFIG place one entry that was free, a module-wide mark its reserved entry 1 ms later too; what was
set stays; a request that fails a check of R313 places nothing (R309, R310, R313, R317).

MARK_CANCEL frees an entry in SET and is too late for any other; a TAG that only entries outside the function's partition
carry is a field error, one that no entry carries is not found; MARK_LIST writes the entries that the function sees in order
and a final record; TIME_SET steps the Meridian while no entry is set and measures the offset anew (R307, R310, R311,
R313). -/
def Obligations.MarksAreSetAndCancelled : Prop :=
  ((∀ (s : State) (id : Nat) (o : Op), Waits s 0x80 id o →
     (s.markSetStatus o ≠ stOk → exec (.markSet id) s = .next (s.finish id (s.markSetStatus o)))
     ∧ (s.markSetStatus o = stOk →
       ∃ t i m, exec (.markSet id) s = .next t ∧ Ended t id stOk ∧ s.mark i = none ∧ t.mark i = some m
       ∧ some m.time = timeAt o.bytes 16 ∧ m.action = byteAt o.bytes 8 ∧ m.part = o.markPart ∧ m.tag = o.tag ∧ m.st = .set
       ∧ m.desc = le o.bytes 32 8 ∧ m.item = le o.bytes 40 4 ∧ m.value = le o.bytes 44 4
       ∧ (∀ k x, s.mark k = some x → t.mark k = some x)
       ∧ (byteAt o.bytes 8 ≠ 7 → t.freeMarks + 1 = s.freeMarks)
       ∧ (byteAt o.bytes 8 = 7 → t.freeMarks + 2 = s.freeMarks ∧ ∃ j r, m.partner = some j ∧ t.mark j = some r
         ∧ r.st = .reserved ∧ r.time = m.time + 1000000 ∧ r.action = 7 ∧ r.tag = m.tag)
       ∧ OnlyReports { s with mrd := t.mrd } t))
   ∧ ∀ (s : State) (id : Nat) (o : Op) (data : Bytes), Waits s 0x90 id o →
     (partConfigFieldOk o.bytes = false → exec (.partConfig id data) s = .next (s.finish id stMrdField))
     ∧ (partConfigFieldOk o.bytes = true → s.reachable 0 = true → let b := slice data 0 (le o.bytes 24 4)
       (s.partConfigStatus o b ≠ stOk → exec (.partConfig id data) s = .next (s.finish id (s.partConfigStatus o b)))
       ∧ (s.partConfigStatus o b = stOk →
         ∃ t i m j r, exec (.partConfig id data) s = .next t ∧ Ended t id stOk ∧ s.mark i = none ∧ t.mark i = some m
         ∧ some m.time = timeAt o.bytes 32 ∧ m.action = 8 ∧ m.part = 0xFF ∧ m.tag = o.tag ∧ m.st = .set ∧ m.layout = b
         ∧ m.partner = some j ∧ t.mark j = some r ∧ r.st = .reserved ∧ r.time = m.time + 1000000
         ∧ (∀ k x, s.mark k = some x → t.mark k = some x) ∧ t.freeMarks + 2 = s.freeMarks
         ∧ OnlyReports { s with mrd := t.mrd } t)))
  ∧ ((∀ (s : State) (id : Nat) (o : Op), Waits s 0x81 id o →
       ((zeroAt o.bytes 8 8 = false ∨ zeroAt o.bytes 20 44 = false) →
         exec (.markCancel id) s = .next (s.finish id stMrdField))
       ∧ (zeroAt o.bytes 8 8 = true → zeroAt o.bytes 20 44 = true →
         (s.cancelEntry o.fn (le o.bytes 16 4) = none →
           (s.cancelEntry 0 (le o.bytes 16 4) = none → exec (.markCancel id) s = .next (s.finish id stMrdNotFound))
           ∧ ((s.cancelEntry 0 (le o.bytes 16 4)).isSome = true →
             exec (.markCancel id) s = .next (s.finish id stMrdField)))
         ∧ ∀ i m, s.cancelEntry o.fn (le o.bytes 16 4) = some (i, m) →
           (m.st = .set → ∃ t, exec (.markCancel id) s = .next t ∧ Ended t id stOk ∧ t.mark i = none
             ∧ (∀ k, k ≠ i → m.partner ≠ some k → t.mark k = s.mark k) ∧ OnlyReports { s with mrd := t.mrd } t)
           ∧ (m.st ≠ .set → exec (.markCancel id) s = .next (s.finish id stMrdTooLate))))
     ∧ (∀ (s : State) (id : Nat) (o : Op), Waits s 0x82 id o → zeroAt o.bytes 8 8 = true → zeroAt o.bytes 24 40 = true →
       s.reachable o.fn = true →
       ∃ (t : State) (l : List Output) (ms : List Mark), exec (.markList id) s = .next t ∧ Ended t id stOk ∧ OnlyReports s t
         ∧ t.out = s.out ++ .hostWrite o.fn (le o.bytes 16 8) (ms.flatMap Mark.record ++ zeros 32) :: l
         ∧ (∀ m, m ∈ ms ↔ (∃ i, (i, m) ∈ s.mrd.marks) ∧ m.seen o.fn = true) ∧ ms.Pairwise (fun a b => b.before a = false)
         ∧ ∀ m ∈ ms, m.record.length = 32)
     ∧ ∀ (s : State) (id time : Nat) (o : Op), Waits s 0x83 id o → timeAt o.bytes 16 = some time → zeroAt o.bytes 8 8 = true →
       zeroAt o.bytes 26 38 = true →
       (s.mrd.marks ≠ [] → exec (.timeSet id) s = .next (s.finish id stMrdMarksSet))
       ∧ (s.mrd.marks = [] → ∃ t, exec (.timeSet id) s = .next t ∧ Ended t id stOk ∧ t.now = time ∧ t.mrd.stepped = true
         ∧ t.mrd.slew = 0 ∧ t.mrd.st = s.mrd.st
         ∧ (let d : Int := s.mrd.slew + s.now - time
           (s.mrd.source = 2 ∨ s.mrd.st = 0 → t.mrd.offset = sat32 s.mrd.offset)
           ∧ (s.mrd.source = 0 → s.mrd.st ≠ 0 → t.mrd.offset = sat32 d)
           ∧ (s.mrd.source = 1 → s.mrd.st ≠ 0 →
             (d - t.mrd.offset) % 1000000000 = 0 ∧ -500000000 ≤ t.mrd.offset ∧ t.mrd.offset ≤ 500000000))
         ∧ (t.mrd.large = true ↔ t.mrd.offset < -1000000 ∨ 1000000 < t.mrd.offset)
         ∧ tget 0 t.evSeq srcMeridian =
           (tget 0 s.evSeq srcMeridian + (if t.mrd.large ∧ s.mrd.large = false then 1 else 0)) % 2 ^ 32
         ∧ OnlyReports { s with now := time, mrd := t.mrd } t))

/-- Arming: it begins 10 ms before the mark, or later where an entry has still to act before that, and for a PARTITION mark
stops dispatch in every changed partition. A participant that met a TRANSIENT error is counted and is ARMED; one with a LASTING
error is counted and is not. The entry is ARMED with its last participant; one that is not ARMED 50 µs before the mark is
aborted with what arming stopped resumed, a fallback mark by a reset of the module (R314, R319, R366).

DISPATCH and EVENT marks act at their time and free their entry; a stored descriptor that reads without an error goes before
every one that waits, and is dispatched at once unless something holds it back (R309, R311). -/
def Obligations.MarksArmAndAct : Prop :=
  (∀ (s : State) (i : Nat) (m : Mark), s.mark i = some m →
     (s.isRun = true → m.st = .set → ∃ t, exec (.markArmingStart i) s = .next t
       ∧ t.mark i = some { m with st := .arming, armed := [], failed := [] } ∧ t.now = (s.atLeast (m.time - 10000000)).now
       ∧ (∀ k, k ≠ i → t.mark k = s.mark k)
       ∧ (m.action = 8 → ∀ p ∈ changedParts s.layout m.layout, (t.part p).stop = true)
       ∧ (m.action ≠ 8 → t.parts = s.parts) ∧ t = { s with now := t.now, mrd := t.mrd, parts := t.parts })
     ∧ (∀ u : BitVec 16, m.st = .arming → (s.participants m).contains u.toNat = true → m.armed.contains u.toNat = false →
       m.failed.contains u.toNat = false → s.now ≤ m.time - 50000 →
       (s.armReady m = true →
         let m1 := { m with
           armed := u.toNat :: m.armed
           st := if (s.participants m).all (u.toNat :: m.armed).contains then .armed else .arming }
         exec (.markParticipantArmed i u none) s = .next (s.setMark i m1)
         ∧ exec (.markParticipantArmed i u (some .transient)) s =
           .next ((s.countError (s.unitPart u.toNat) cntTransient).setMark i m1))
       ∧ ∃ t, exec (.markParticipantArmed i u (some .lasting)) s = .next t
         ∧ (∃ x, t.mark i = some x ∧ x.st = .arming ∧ u.toNat ∉ x.armed ∧ x.failed = u.toNat :: m.failed)
         ∧ t = { (s.countError (s.unitPart u.toNat) cntLasting) with mrd := t.mrd })
     ∧ (s.isRun = true → (m.st = .set ∨ m.st = .arming) →
       ∃ t, exec (.markArmDeadline i) s = .next t ∧ t.mark i = none
         ∧ t.now = (s.atLeast (m.time - 50000)).now
         ∧ (m.action ≤ 4 → (s.round (2 * m.part + m.slot)).st.running = true →
           (t.round (2 * m.part + m.slot)).st = .aborted ∧ (t.round (2 * m.part + m.slot)).cause = causeMarkAborted)
         ∧ (5 ≤ m.action → m.action ≤ 9 → m.fallback = false →
           tget 0 t.evSeq srcMeridian = (tget 0 s.evSeq srcMeridian + 1) % 2 ^ 32
           ∧ (m.action = 8 → ∀ p ∈ changedParts s.layout m.layout, (t.part p).stop = false)
           ∧ (m.action ≠ 8 → t.parts = s.parts)
           ∧ OnlyReports { s with now := t.now, mrd := t.mrd, parts := t.parts } t)
         ∧ (m.action = 9 → m.fallback = true → t.pwr.phase = .holdup ∧ t.pwr.selfRst = true)))
  ∧ (∀ (s : State) (i : Nat) (m : Mark), s.mark i = some m → m.fallback = false → s.markNext m = true →
       (m.action = 6 → ∃ t : State, exec (.eventMark i) s = .next t.marksActed ∧ t.mark i = none ∧ t.now = max s.now m.time
         ∧ (∀ k, k ≠ i → t.mark k = s.mark k)
         ∧ tget 0 t.evSeq srcMeridian = (tget 0 s.evSeq srcMeridian + 2) % 2 ^ 32
         ∧ OnlyReports { s with now := t.now, mrd := t.mrd } t)
       ∧ (m.action = 5 → s.clean m.part (addrOf m.desc).tier (addrOf m.desc).addr 64 →
         let u := { s with now := max s.now m.time }.delMark i
         let fn := m.part + 1
         let x : Fetched := ⟨0, s.ptClean m.part (addrOf m.desc).tier (addrOf m.desc).addr 64, .mark, stOk⟩
         let held := !u.serving || u.dispatchHeld fn || decide (u.nextTok fn = .none) || (bit (byteAt x.bytes 1) 0 && u.ringBusy fn)
         (held = true → ∃ t : State, exec (.dispatchMark i) s = .next t.marksActed ∧ t.mark i = none ∧ t.now = max s.now m.time
           ∧ (t.fn fn).fetched = x :: (s.fn fn).fetched ∧ OnlyReports { s with now := t.now, mrd := t.mrd } t)
         ∧ (held = false → u.dispatchStatus fn x = stOk →
           ∃ (t : State) (o : Op), exec (.dispatchMark i) s = .next t.marksActed ∧ t.mark i = none ∧ t.now = max s.now m.time
             ∧ t.op s.nextOp = some o ∧ o.fn = fn ∧ o.bytes = x.bytes ∧ o.phase = .ready ∧ o.origin = .mark
             ∧ (t.fn fn).fetched = (s.fn fn).fetched
             ∧ OnlyReports { s with now := t.now, mrd := t.mrd, nextOp := s.nextOp + 1 } t)
         ∧ (held = false → u.dispatchStatus fn x ≠ stOk → (byteAt x.bytes 0 < 0x70 ∨ 0x73 < byteAt x.bytes 0) →
           ∃ t : State, exec (.dispatchMark i) s = .next t.marksActed ∧ t.mark i = none ∧ t.now = max s.now m.time
             ∧ Ended t s.nextOp (u.dispatchStatus fn x)
             ∧ OnlyReports { s with now := t.now, mrd := t.mrd, nextOp := s.nextOp + 1 } t)))

/-- Module-wide marks apply at their time: a MODE item takes its value, a layout comes into force, the other image runs; the
entry is APPLIED and keeps what a rollback restores; every other entry whose time has come acts after it (R309, R312, R315,
R316, R319, R364).

The end of the applied window, 1 ms after a module-wide mark: DONE without a request; on the request of a participant every
participant restores what it held before the mark and the fault is handled, and a participant that faults again is out of
service; partitions that a PARTITION mark changed blank, and dispatch waits for it (R315, R316, R319, R364, R366). -/
def Obligations.WideMarksApplyAndEnd : Prop :=
  (∀ (s : State) (i : Nat) (m : Mark), s.mark i = some m → s.markNext m = true →
     (m.action = 7 → m.fallback = false →
       (m.item = 1 → ∃ t : State, exec (.modeMark i) s = .next t.marksActed ∧ t.glb = { s.glb with det := m.value == 1 }
         ∧ t.mark i = some { m with st := .applied, oldVal := b2n s.glb.det }
         ∧ t = { s with now := max s.now m.time, glb := t.glb, mrd := t.mrd })
       ∧ (m.item = 2 → ∃ t : State, exec (.modeMark i) s = .next t.marksActed ∧ t.pwr.clock = m.value
         ∧ t.mark i = some { m with st := .applied, oldVal := s.pwr.clock }
         ∧ OnlyReports { s with now := max s.now m.time, pwr := t.pwr, mrd := t.mrd } t))
     ∧ (m.action = 8 → m.fallback = false → ∃ t : State, exec (.partitionMark i) s = .next t.marksActed ∧ t.layout = m.layout
       ∧ (∀ p, p < 32 → t.cfg p = layCfg m.layout p ∧ t.part p = { s.part p with cfg := t.cfg p })
       ∧ t.mark i = some { m with st := .applied, oldLay := s.layout }
       ∧ t = { s with now := max s.now m.time, layout := t.layout, parts := t.parts, mrd := t.mrd })
     ∧ (m.action = 9 → m.fallback = false → ∃ t : State, exec (.firmwareMark i) s = .next t.marksActed
       ∧ t.fw = { s.fw with running := 1 }
       ∧ t.mark i = some { m with st := .applied, oldVal := s.fw.running }
       ∧ t = { s with now := max s.now m.time, fw := t.fw, mrd := t.mrd })
     ∧ (m.action = 9 → m.fallback = true → ∃ t : State, exec (.fallbackMark i) s = .next t.marksActed
       ∧ t.fw = { s.fw with running := 0 }
       ∧ t.mark i = some { m with st := .applied, oldVal := s.fw.running }
       ∧ t = { s with now := max s.now m.time, fw := t.fw, mrd := t.mrd }))
  ∧ ((∀ (s : State) (i : Nat) (m : Mark), s.mark i = some m → s.isRun = true → m.st = .applied →
       s.markBehind { m with time := m.time + 1000000 } = false →
       (m.action = 7 → ∃ t : State, exec (.markRollbackWindowEnd i none none) s = .next t.marksActed ∧ t.mark i = none
         ∧ t.now = (s.atLeast (m.time + 1000000)).now ∧ t.glb = s.glb ∧ t.pwr = s.pwr
         ∧ tget 0 t.evSeq srcMeridian = (tget 0 s.evSeq srcMeridian + 1) % 2 ^ 32
         ∧ OnlyReports { s with now := t.now, mrd := t.mrd } t)
       ∧ (m.action = 8 → ∃ t : State, exec (.markRollbackWindowEnd i none none) s = .next t.marksActed ∧ t.mark i = none
         ∧ t.now = (s.atLeast (m.time + 1000000)).now ∧ t.layout = s.layout
         ∧ ∀ p ∈ changedParts m.oldLay m.layout, (t.part p).stop = false ∧ (t.part p).log = []
           ∧ (t.part p).blanking = ((layCfg m.oldLay p).enabled || (layCfg m.layout p).enabled)
           ∧ t.mem.busy = true ∧ t.mem.kind = 2
           ∧ ∀ k, k < 1024 → tfind t.regions (p * 1024 + k) = none)
       ∧ (m.action = 9 → m.fallback = false → ∃ t : State, exec (.markRollbackWindowEnd i none none) s = .next t.marksActed
         ∧ t.mark i = none ∧ t.fw.image = 1 ∧ t.fw.slotB = 3 ∧ t.fw.running = 1 ∧ t.sec.sessions = [])
       ∧ (m.action = 9 → m.fallback = true → ∃ t : State, exec (.markRollbackWindowEnd i none none) s = .next t.marksActed
         ∧ t.mark i = none ∧ t.fw.image = 0 ∧ t.fw.slotB = 4 ∧ t.fw.running = 0 ∧ t.sec.sessions = [])
       ∧ ∀ (u : BitVec 16) (again : Option (BitVec 16)), (s.participants m).contains u.toNat = true →
         ∃ t : State, exec (.markRollbackWindowEnd i (some u) again) s = .next t.marksActed ∧ t.mark i = none
           ∧ (m.action = 7 → (m.item = 1 → t.glb.det = (m.oldVal == 1)) ∧ (m.item = 2 → t.pwr.clock = m.oldVal))
           ∧ (m.action = 8 → t.layout = m.oldLay ∧ (∀ p, p < 32 → t.cfg p = layCfg m.oldLay p)
             ∧ ∀ p ∈ changedParts m.oldLay m.layout, (t.part p).stop = false)
           ∧ (m.action = 9 → m.fallback = false → t.fw.slotB = 4 ∧ t.fw.running = m.oldVal)
           ∧ (m.action = 9 → m.fallback = true → t.pwr.phase = .holdup ∧ t.pwr.selfRst = true)
           ∧ ∀ v : BitVec 16, again = some v → (s.participants m).contains v.toNat = true →
             (v.toNat / 1024 = 1 → (t.panel (v.toNat % 1024)).health = 3)
             ∧ (v.toNat / 1024 = 7 → (tget gruInit t.grus (v.toNat % 1024)).offline = true))
     ∧ ∀ (s : State) (p : Nat), (s.part p).blanking = true →
       ∃ t, exec (.partitionBlankDone p) s = .next t ∧ t.part p = { s.part p with blanking := false }
         ∧ ((∀ q, q < 32 → q ≠ p → (s.part q).blanking = false) → t.mem = { s.mem with busy := false, kind := 0 })
         ∧ ((∃ q, q < 32 ∧ q ≠ p ∧ (s.part q).blanking = true) → t.mem = s.mem) ∧ SameMemory s t
         ∧ t = { s with parts := t.parts, mem := t.mem })

/-- PTP messages count from the selected master alone, on a port of PORT_MASK, in the domain and transport of the profile
(R305); a Sync or a Follow_Up measures the offset; 16 near offsets lock; an offset within 1 ms is slewed, a larger one
stepped while no entry is set; losing the source holds over (R305, R306, R307).

An Announce is noted. The port that has announced itself a second time within four intervals, and than which no other one is
better, becomes the master; one that has announced itself once does not. The order of masters and the window are those of
IEEE 1588, outside the spec's text (notes/assumptions/77.md). -/
def Obligations.MeridianFollowsItsSource : Prop :=
  (∀ (s : State) (x : PtpFrom), (s.ptpOpen x = true ↔ s.isRun = true ∧ s.mrd.source = 0 ∧ bit s.mrd.ports x.src.port = true
      ∧ x.domain = (if s.mrd.profile = 1 then s.mrd.domain else 0) ∧ (s.mrd.profile = 0 ∨ x.udp = true))
    ∧ (s.ptpOpen x = false ∨ s.mrd.master ≠ some x.src → ∀ origin twoStep,
      exec (.ptpSyncReceive x origin twoStep) s = .next s ∧ exec (.ptpFollowUpReceive x origin) s = .next s
      ∧ exec (.ptpDelayRespReceive x origin) s = .next s)
    ∧ (s.ptpOpen x = false → ∀ data, exec (.ptpAnnounceReceive x data) s = .next s))
  ∧ (∀ (s : State) (x : PtpFrom) (origin : Nat), s.ptpOpen x = true → s.mrd.master = some x.src →
    let off : Int := (origin : Int) + s.mrd.delay - s.now
    exec (.ptpSyncReceive x origin true) s =
      .next { s with mrd := { s.mrd.acceptSync with syncT1 := none, syncT2 := s.now } }
    ∧ (-1000000 ≤ off → off ≤ 1000000 → ∃ t, exec (.ptpSyncReceive x origin false) s = .next t ∧ t.mrd.offset = off
      ∧ t.mrd.slew = off ∧ t.mrd.large = false ∧ (s.mrd.st = 0 ∨ s.mrd.st = 3 → t.mrd.st = 1) ∧ t = { s with mrd := t.mrd }
      ∧ (-100 ≤ off → off ≤ 100 → s.mrd.st = 1 → 15 ≤ s.mrd.inBand → t.mrd.st = 2)
      ∧ ((off < -100 ∨ 100 < off) → s.mrd.st = 2 → 15 ≤ s.mrd.outBand → t.mrd.st = 1))
    ∧ ((off < -1000000 ∨ 1000000 < off) → s.mrd.marks = [] → ∃ t, exec (.ptpSyncReceive x origin false) s = .next t
      ∧ (t.now : Int) = max 0 ((origin : Int) + s.mrd.delay) ∧ t.mrd.stepped = true ∧ t.mrd.slew = 0
      ∧ OnlyReports { s with now := t.now, mrd := t.mrd } t)
    ∧ ((off < -1000000 ∨ 1000000 < off) → s.mrd.marks ≠ [] → ∃ t, exec (.ptpSyncReceive x origin false) s = .next t
      ∧ t.now = s.now ∧ t.mrd.slew = off ∧ t.mrd.large = true
      ∧ tget 0 t.evSeq srcMeridian = (tget 0 s.evSeq srcMeridian + (if s.mrd.large then 0 else 1)) % 2 ^ 32
      ∧ OnlyReports { s with mrd := t.mrd } t)
    ∧ (s.mrd.syncT1 = none → s.mrd.st ≠ 0 →
      let d : Int := (origin : Int) + s.mrd.delay - s.mrd.syncT2
      (-1000000 : Int) ≤ d → d ≤ 1000000 → ∃ t, exec (.ptpFollowUpReceive x origin) s = .next t ∧ t.mrd.offset = d
        ∧ t.mrd.slew = d ∧ t.mrd.syncT1 = some origin ∧ t = { s with mrd := t.mrd })
    ∧ exec .ptpDelayReqTimer s = .next ({ s with mrd := { s.mrd with delayT3 := s.now } }.put (.delayReq x.src.port))
    ∧ (∀ t1, s.mrd.syncT1 = some t1 → exec (.ptpDelayRespReceive x origin) s = .next { s with mrd := { s.mrd with
        delay := (((s.mrd.syncT2 : Int) - t1) + ((origin : Int) - s.mrd.delayT3)) / 2 } }))
  ∧ (∀ (s : State) (y : PtpPort), s.isRun = true → s.mrd.source = 0 → s.mrd.master = some y →
    ∃ t, exec .ptpAnnounceTimeout s = .next t ∧ t.mrd.master = none ∧ (s.mrd.st ≠ 0 → t.mrd.st = 3)
      ∧ (s.mrd.st = 0 → t.mrd.st = 0) ∧ (∀ f ∈ t.mrd.foreign, f.from_ ≠ y)
      ∧ t.now = (s.atLeast (s.mrd.announceAt + (if s.mrd.profile = 1 then 3000000000 else 6000000000))).now
      ∧ t = { s with now := t.now, mrd := t.mrd })
  ∧ (∀ (s : State) (x : PtpFrom) (data : PtpData), s.ptpOpen x = true →
    ∃ t, exec (.ptpAnnounceReceive x data) s = .next t ∧ t = { s with mrd := t.mrd }
      ∧ (∃ f ∈ t.mrd.foreign, f.from_ = x.src ∧ f.data = data ∧ f.heard = s.now)
      ∧ (s.mrd.foreign.find? (fun f => f.from_ == x.src) = none → t.mrd.master = some x.src → s.mrd.master = some x.src)
      ∧ (∀ f, s.mrd.foreign.find? (fun f => f.from_ == x.src) = some f → s.now ≤ f.heard + 4 * s.mrd.announceGap →
        (∀ y ∈ s.mrd.foreign, y.from_ ≠ x.src → y.better ⟨x.src, data, s.now, some f.heard⟩ = false) →
        t.mrd.master = some x.src ∧ t.mrd.announceAt = s.now ∧ (s.mrd.master ≠ some x.src → t.mrd.port = x.src.port)))
  ∧ (∀ s : State, s.isRun = true → s.mrd.source = 1 →
    ((s.now % 1000000000 ≤ 1000000 ∨ 999000000 ≤ s.now % 1000000000) → ∃ t, exec .ppsInEdge s = .next t
      ∧ (((s.now : Int) + t.mrd.offset) % 1000000000 = 0) ∧ t.mrd.slew = t.mrd.offset ∧ t.mrd.ppsAt = some s.now
      ∧ t = { s with mrd := t.mrd })
    ∧ ∀ at0, s.mrd.ppsAt = some at0 → ∃ t, exec .ppsMissingTimeout s = .next t ∧ (s.mrd.st ≠ 0 → t.mrd.st = 3)
      ∧ t.now = (s.atLeast (at0 + 3000000000)).now ∧ t.mrd.ppsAt = none ∧ t = { s with now := t.now, mrd := t.mrd })
  ∧ ∀ s : State, s.isRun = true →
    (∃ t, exec .ppsOutSecond s = .next t ∧ t.mrd.ppsOut = !s.mrd.ppsOut
      ∧ (s.mrd.ppsOut = false → t.now = (s.atLeast ((s.now + 999999999) / 1000000000 * 1000000000)).now)
      ∧ (s.mrd.ppsOut = true → s.now % 1000000000 < 1000000 →
        t.now = (s.atLeast (s.now / 1000000000 * 1000000000 + 1000000)).now)
      ∧ t = { s with now := t.now, mrd := t.mrd })
    ∧ ∀ v : Word, ∃ t, exec (.mrdCfgWrite v) s = .next t ∧ t.mrd.domain = field v.toNat 24 8
      ∧ t.mrd.ports = field v.toNat 16 8 ∧ (field v.toNat 14 2 < 2 → t.mrd.profile = field v.toNat 14 2)
      ∧ (2 ≤ field v.toNat 14 2 → t.mrd.profile = s.mrd.profile) ∧ (field v.toNat 12 2 = 3 → t.mrd.source = s.mrd.source)
      ∧ (field v.toNat 12 2 ≠ 3 → t.mrd.source = field v.toNat 12 2)
      ∧ (field v.toNat 12 2 ≠ 3 → field v.toNat 12 2 ≠ s.mrd.source → t.mrd.st = 0 ∧ t.mrd.master = none ∧ t.mrd.slew = 0)
      ∧ t.now = s.now ∧ t = { s with mrd := t.mrd }

/-! ## The Thimble -/

/-- TENANT_SWITCH and LIFECYCLE_RETIRE zeroise every slot, end every session and open round, and erase tier C and both
tiers; with the scrub done the epoch rises by one, the tenant is gone, and the module resets, or is RETIRED with its identity
key destroyed. The row of a line that fails its verification twice is retired while its group has spare rows (R205, R210, R344,
R345). A wrong CONFIRM or reserved byte starts nothing; FACTORY is left by fusing alone, so that retiring there is refused, the
model's choice (R3, notes/assumptions/82.md).

FAULT_SECURE is entered only from DEPLOYED: it records its cause, zeroises every slot, ends every session and aborts every
open round; in another lifecycle state the same cause changes nothing there (R3, R343). -/
def Obligations.TenantSwitchAndFaultSecure : Prop :=
  ((∀ (s : State) (c : Instr) (opc id : Nat) (o : Op),
     (opc, c) ∈ [(0x91, Instr.tenantSwitch id), (0x92, .lifecycleRetire id)] → Waits s opc id o →
     ((opc = 0x91 → zeroAt o.bytes 8 56 = true) →
       (opc = 0x92 → zeroAt o.bytes 8 8 = true ∧ zeroAt o.bytes 20 44 = true
         ∧ le o.bytes 16 4 = 2 ^ 32 - 1 - s.sec.epoch % 2 ^ 32 ∧ s.sec.lifecycle ≠ 0) →
       ∃ t, exec c s = .next t ∧ t.secretsGone ∧ t.sec.pending = true ∧ t.sec.switchRun = true
         ∧ (opc = 0x92 → t.sec.retiring = true) ∧ t.sec.epoch = s.sec.epoch ∧ t.tierA = [] ∧ t.tierB = []
         ∧ t.mem.written = [] ∧ t.flc.lblocks = [] ∧ t.flc.media = [] ∧ t.flc.ckpts = [] ∧ t.flc.st = 4
         ∧ t.mem.busy = true ∧ t.mem.kind = 3 ∧ t.sec.maskDrbg = none ∧ ∀ p, (t.part p).drbg = none)
     ∧ ((opc = 0x91 ∧ zeroAt o.bytes 8 56 = false) ∨ (opc = 0x92 ∧ (zeroAt o.bytes 8 8 = false ∨ zeroAt o.bytes 20 44 = false
         ∨ le o.bytes 16 4 ≠ 2 ^ 32 - 1 - s.sec.epoch % 2 ^ 32 ∨ s.sec.lifecycle = 0)) →
       exec c s = .next (s.finish id stSecField)))
   ∧ (∀ (s : State) (bad : List (Nat × Nat)), s.isRun = true → s.sec.switchRun = true →
     ∃ t, exec (.tenantSwitchScrubDone bad) s = .next t ∧ t.sec.epoch = s.sec.epoch + 1 ∧ t.sec.tenantId = none
       ∧ t.sec.pending = false ∧ t.sec.switchRun = false ∧ t.tierA = [] ∧ t.tierB = [] ∧ t.mem.busy = false ∧ t.mem.kind = 0
       ∧ (∀ e ∈ bad, e.1 < 2 → e.2 < tierBytes e.1 →
         s.mem.stuck.contains (lineKey e.1 e.2) = false →
         tget 0 t.mem.spares (e.1 * 256 + groupOf e.1 e.2) < spareRows e.1 → rowKey e.1 e.2 ∈ t.mem.retired)
       ∧ (bad = [] → t.mem.retired = s.mem.retired ∧ t.mem.spares = s.mem.spares)
       ∧ (s.sec.retiring = false → t.pwr.phase = .holdup ∧ t.pwr.selfRst = true)
       ∧ (s.sec.retiring = true → t.sec.fused = .retired ∧ t.sec.udsFused = true ∧ (t.slot 0).valid = false
         ∧ t.pwr.phase = .run)))
  ∧ (∀ (s : State) (n : Nat),
       (s.sec.lifecycle = 1 →
         (∃ t, exec .meshBreach s = .next t ∧ t.sec.latch = true ∧ t.sec.cause = 2 ∧ t.secretsGone ∧ SameMemory s t)
         ∧ ((∃ e ∈ s.sec.slots, e.2.valid = true) →
           ∃ t, exec .glitchDetect s = .next t ∧ t.sec.latch = true ∧ t.sec.cause = 3 ∧ t.secretsGone ∧ SameMemory s t)
         ∧ ∃ t, exec (.keySlotIntegrityFault n) s = .next t ∧ t.sec.latch = true ∧ t.sec.cause = 4 ∧ t.secretsGone
           ∧ SameMemory s t)
       ∧ (s.sec.lifecycle ≠ 1 → exec .meshBreach s = .next s ∧ exec .glitchDetect s = .next s
         ∧ ∃ t, exec (.keySlotIntegrityFault n) s = .next t ∧ OnlyReports s t)
       ∧ ((∀ e ∈ s.sec.slots, e.2.valid = false) → exec .glitchDetect s = .next s))

/-- MGMT_CRED sets OPERATOR_KEY to a point of the curve and the floor to 0; the masks of all 256 slots are replaced by 8,192
bytes of the Thimble's DRBG without any other change; fusing is one way (R3, R328, R349, R391).

The random number source: a run of 81 equal bits, or the first bit 840 times, fails a block; its source restarts; a
third failure within 1,024 blocks is fatal once the start-up test has passed; raw bits are tapped, and in FACTORY a test
pattern is injected into the tapped source (R346, R351). The start-up test passes when at most two of its blocks failed in all
(R347). -/
def Obligations.ThimbleUpkeepAndRandomSource : Prop :=
  ((∀ (s : State) (id : Nat) (o : Op) (key : Bytes), Waits s 0x96 id o → zeroAt o.bytes 8 8 = true →
     zeroAt o.bytes 24 40 = true → s.reachable 0 = true →
     ((ecParse (slice key 0 97)).isSome = true → ∃ t, exec (.mgmtCred id key) s = .next t ∧ Ended t id stOk
       ∧ t.sec = { s.sec with opKey := some (slice key 0 97), seqFloor := 0 } ∧ OnlyReports { s with sec := t.sec } t)
     ∧ ((ecParse (slice key 0 97)).isSome = false → exec (.mgmtCred id key) s = .next (s.finish id stSecField)))
   ∧ ∀ s : State,
     (∀ d, s.thimbleUp = true → s.sec.maskDrbg = some d → ∃ t, exec .keyMaskRefresh s = .next t
       ∧ t.sec.masks.length = 8192 ∧ t.sec.maskDrbg.isSome = true ∧ t.sec = { s.sec with masks := t.sec.masks, maskDrbg := t.sec.maskDrbg }
       ∧ t = { s with sec := t.sec, free := t.free })
     ∧ (s.thimbleUp = false ∨ s.sec.maskDrbg = none → exec .keyMaskRefresh s = .next s)
     ∧ (s.sec.fused = .factory → exec .fusingToDeployed s = .next { s with sec := { s.sec with fused := .deployed } })
     ∧ (s.sec.fused ≠ .factory → exec .fusingToDeployed s = .next s))
  ∧ ((∀ (s : State) (src : Nat) (bits : Bytes), s.isRun = true → s.rng.running.contains src = true →
       (s.rng.inject = false ∨ s.rng.tapSrc ≠ src →
         let b := slice bits 0 128
         (blockTest (blockBits b) = 0 → ∃ t, exec (.rngBlockTest src bits) s = .next t
           ∧ t.rng = { s.rng with blocks := s.rng.blocks + 1, fifo := t.rng.fifo } ∧ t = { s with rng := t.rng }
           ∧ (s.rng.tap = false → t.rng.fifo = s.rng.fifo))
         ∧ (blockTest (blockBits b) ≠ 0 → ∃ t, exec (.rngBlockTest src bits) s = .next t
           ∧ t.rng.running.contains src = false ∧ t.rng.blocks = s.rng.blocks + 1
           ∧ (s.rng.passed = false → t.rng.alarm = s.rng.alarm ∧ OnlyReports { s with rng := t.rng } t)
           ∧ (s.rng.passed = true → s.rng.alarm = false →
             (2 ≤ (s.rng.fails.filter (fun n => decide (s.rng.blocks + 1 < n + 1024))).length → t.rng.alarm = true
               ∧ (s.sec.lifecycle = 1 → t.sec.latch = true ∧ t.sec.cause = 1 ∧ t.secretsGone))
             ∧ ((s.rng.fails.filter (fun n => decide (s.rng.blocks + 1 < n + 1024))).length < 2 → t.rng.alarm = false))))
       ∧ (s.rng.inject = true → s.rng.tapSrc = src →
         (s.rng.injected.length < 128 → exec (.rngBlockTest src bits) s = .next s)
         ∧ (128 ≤ s.rng.injected.length → ∃ t, exec (.rngBlockTest src bits) s = .next t
           ∧ t.rng.injected = s.rng.injected.drop 128 ∧ t.rng.blocks = s.rng.blocks + 1
           ∧ (t.rng.running.contains src = true ↔ blockTest (blockBits (slice s.rng.injected 0 128)) = 0))))
     ∧ (∀ (s : State) (src : Nat) (bits : Bytes), (s.isRun = false ∨ s.rng.running.contains src = false) →
       exec (.rngBlockTest src bits) s = .next s)
     ∧ (∀ (x : Bool) (l r : List Bool), blockTest (l ++ List.replicate 81 x ++ r) = 1)
     ∧ (∀ (s : State) (src : Nat), s.isRun = true → src < 64 → s.rng.running.contains src = false →
       exec (.rngSourceRestartDone src) s = .next { s with rng := { s.rng with running := src :: s.rng.running } })
     ∧ (∀ (s : State) (fails : List (Nat × Nat × Nat)), s.isRun = true → s.rng.passed = false → s.rng.alarm = false →
       (∀ f ∈ fails, s.rng.blocks < f.1 ∧ f.1 ≤ 65536 ∧ f.2.1 < 64 ∧ (f.2.2 = 1 ∨ f.2.2 = 2)) →
       fails.Pairwise (fun a b => a.1 < b.1) →
       (s.rng.startFails + fails.length ≤ 2 → ∃ t, exec (.rngStartupTestDone fails) s = .next t ∧ t.rng.passed = true
         ∧ t.rng.alarm = false ∧ (s.fw.load = 3 → t.fw.load = 4))
       ∧ (2 < s.rng.startFails + fails.length → ∃ t, exec (.rngStartupTestDone fails) s = .next t ∧ t.rng.alarm = true
         ∧ t.rng.passed = false ∧ (s.fw.load = 3 → t.fw.load = 4)
         ∧ (s.sec.lifecycle = 1 → t.sec.latch = true ∧ t.sec.cause = 1 ∧ t.secretsGone)))
     ∧ (∀ s : State, s.isRun = true → (s.rng.fifo = [] → exec .rngRawRead s =
         .next ({ s with rng := { s.rng with empty := true } }.put (.readData 0 0x5E0008 32 0)))
       ∧ ∀ w ws, s.rng.fifo = w :: ws → exec .rngRawRead s =
         .next ({ s with rng := { s.rng with fifo := ws } }.put (.readData 0 0x5E0008 32 (2 ^ 31 + w))))
     ∧ ∀ (s : State) (v : Word), s.isRun = true →
       (s.rng.inject = true → exec (.rngRawWrite v) s =
         .next { s with rng := { s.rng with injected := s.rng.injected ++ leBytes 2 v.toNat } })
       ∧ (s.rng.inject = false → exec (.rngRawWrite v) s = .next s)
       ∧ ∃ t, exec (.rngCtlWrite v) s = .next t ∧ t.rng.tap = bit v.toNat 7 ∧ t.rng.tapSrc = v.toNat % 64
         ∧ (t.rng.inject = true ↔ bit v.toNat 6 = true ∧ s.sec.fused = .factory)
         ∧ (bit v.toNat 6 = true → s.sec.fused ≠ .factory →
           tget 0 t.evSeq srcThimble = (tget 0 s.evSeq srcThimble + 1) % 2 ^ 32)
         ∧ OnlyReports { s with rng := t.rng } t)

/-- SPDM sessions: at most eight; a key exchange makes the session's secret by ECDHE on P-384; answers to challenges and
measurement requests end in an ECDSA signature by the device identity key; the first mutual authentication of a module without
a tenant claims it; requests in a session renew its heartbeat; a session that ends takes with it the slots delivered for its
life (R335, R336, R337). The digest that is signed covers a transcript that the model does not hold (notes/assumptions/85.md).
-/
def Obligations.SpdmSessions : Prop :=
  (∀ (s : State) (c : Carrier) (nonce : Bytes), s.carries c = true →
    exec (.spdmGetCertificate c) s = .next (s.put (.spdm c 0x02 s.chain))
    ∧ ((s.slot 0).usable engCart 0 = true →
      (∃ t k digest, exec (.spdmGetMeasurements c) s = .next t ∧ digest.length = 48
        ∧ t = { s with free := t.free }.put
          (.spdm c 0x60 (s.measurements ++ ecdsaSign (beNat (s.slot 0).key) k digest)))
      ∧ ∃ t k digest, exec (.spdmChallenge c nonce) s = .next t ∧ digest.length = 48
        ∧ t = { s with free := t.free }.put
          (.spdm c 0x03 (nonce ++ sha384 s.chain ++ ecdsaSign (beNat (s.slot 0).key) k digest))))
  ∧ (∀ (s : State) (c : Carrier) (sid : BitVec 32) (exch : Bytes), s.carries c = true → s.session sid.toNat = none →
    (8 ≤ s.sec.sessions.length → exec (.spdmKeyExchange c sid exch) s = .next (s.put (.spdm c 0x7F (leBytes 1 0x0A))))
    ∧ (s.sec.sessions.length < 8 → s.sec.switchRun = true ∨ (s.slot 0).usable engCart 0 = false →
      exec (.spdmKeyExchange c sid exch) s = .next (s.put (.spdm c 0x7F (leBytes 1 5))))
    ∧ (s.sec.sessions.length < 8 → s.sec.switchRun = false → (s.slot 0).usable engCart 0 = true →
      (ecParse ([4] ++ exch) = none → exec (.spdmKeyExchange c sid exch) s = .next (s.put (.spdm c 0x7F (leBytes 1 1))))
      ∧ ∃ d, (ecdh d ([4] ++ exch) = none → exec (.spdmKeyExchange c sid exch) s = .next (s.put (.spdm c 0x7F (leBytes 1 1))))
        ∧ ∀ secret, ecdh d ([4] ++ exch) = some secret →
          ∃ t k digest l, exec (.spdmKeyExchange c sid exch) s = .next t ∧ digest.length = 48
            ∧ t.sec = { s.sec with sessions := s.sec.sessions ++ [⟨sid.toNat, c, false, false, 0, s.now, secret⟩] }
            ∧ t.out = s.out ++ .spdm c 0x64 (leBytes 4 sid.toNat ++ (ecPublic d).drop 1
              ++ ecdsaSign (beNat (s.slot 0).key) k digest) :: l
            ∧ tget 0 t.evSeq srcThimble = (tget 0 s.evSeq srcThimble + 1) % 2 ^ 32
            ∧ OnlyReports { s with sec := t.sec, free := t.free } t))
  ∧ (∀ (s : State) (sid : BitVec 32) (x : Session), s.session sid.toNat = some x → x.secured = false →
    (∃ t, exec (.spdmFinish sid none) s = .next t ∧ t.sec.tenantId = s.sec.tenantId
      ∧ t.session sid.toNat = some { x with secured := true, tenant := false, hbAt := s.now }
      ∧ t.out = s.out ++ [.spdm x.carrier 0x65 []] ∧ t = { s with sec := t.sec, out := t.out })
    ∧ ∀ root, s.sec.lifecycle = 1 → ∃ t, exec (.spdmFinish sid (some root)) s = .next t
      ∧ (s.sec.tenantId = none → t.sec.tenantId = some root)
      ∧ (∀ d, s.sec.tenantId = some d → t.sec.tenantId = some d)
      ∧ t.session sid.toNat = some { x with
        secured := true, tenant := s.sec.tenantId == none || s.sec.tenantId == some root, hbAt := s.now }
      ∧ OnlyReports { s with sec := t.sec } t)
  ∧ (∀ (s : State) (sid : BitVec 32) (x : Session), InSession s sid x →
    (∃ t, exec (.spdmKeyUpdate sid) s = .next t ∧ t.session sid.toNat = some { x with keyNo := x.keyNo + 1, hbAt := s.now }
      ∧ t.out = s.out ++ [.spdm x.carrier 0x69 []] ∧ t = { s with sec := t.sec, out := t.out })
    ∧ (∃ t, exec (.spdmHeartbeat sid) s = .next t ∧ t.session sid.toNat = some { x with hbAt := s.now }
      ∧ t.out = s.out ++ [.spdm x.carrier 0x68 []] ∧ t = { s with sec := t.sec, out := t.out })
    ∧ ∃ t l, exec (.spdmEndSession sid) s = .next t ∧ t.session sid.toNat = none
      ∧ t.out = s.out ++ .spdm x.carrier 0x6C [] :: l
      ∧ ∀ e ∈ t.sec.slots, e.2.valid = true → 168 ≤ e.1 → e.2.life = 0 → e.2.sid ≠ sid.toNat)
  ∧ ∀ (s : State),
    (∀ (sid : BitVec 32) x, s.session sid.toNat = some x → ∃ t, exec (.spdmHeartbeatExpiry sid) s = .next t
      ∧ t.session sid.toNat = none ∧ t.now = (s.atLeast (x.hbAt + 20000000000)).now)
    ∧ (∀ fn, ∃ t, exec (.doeAbort fn) s = .next t ∧ (∀ y ∈ t.sec.sessions, y.carrier ≠ .doe fn)
      ∧ ∀ y ∈ s.sec.sessions, y.carrier ≠ .doe fn → y ∈ t.sec.sessions)
    ∧ ∃ t, exec .mgmtLinkReset s = .next t ∧ (∀ y ∈ t.sec.sessions, y.carrier ≠ .mctp)
      ∧ ∀ y ∈ s.sec.sessions, y.carrier ≠ .mctp → y ∈ t.sec.sessions

/-- Keys of tenants: only a tenant session delivers, unwraps, wraps or zeroises; a request whose header or body is not as R338
lays it out is a field error; a delivery fills a free slot for one engine; what is exported is the key that was delivered,
wrapped; a zeroised slot is gone (R326, R330, R331, R332, R338).

A Cartouche carries its nonce, the epoch, the tenant and the boot set, signed by the device identity key over the SHA-384 of
all that precedes the signature; its length field counts every byte; the log answers at most 128 digests from the entry asked
for (R339, R340). -/
def Obligations.TenantKeysAndCartouche : Prop :=
  ((∀ (s : State) (sid : BitVec 32) (req : Bytes) (x : Session), InSession s sid x →
     ∀ (c : Instr) (cmd : Nat), (cmd, c) ∈ [(1, Instr.keyDeliver sid req), (2, .keyUnwrap sid req), (3, .keyWrap sid req),
       (4, .keyZeroise sid req), (5, .cartoucheGet sid req), (6, .cartoucheLog sid req)] →
     (cmd ≤ 4 → x.tenant = false → ∃ t, exec c s = .next t ∧ t.out = s.out ++ [vendorRsp x.carrier cmd stSecNotTenant []]
       ∧ t.sec.slots = s.sec.slots ∧ t = { s with sec := t.sec, out := t.out })
     ∧ ((cmd ≤ 4 → x.tenant = true) → (req.length < 4 ∨ byteAt req 0 ≠ cmd ∨ byteAt req 1 ≠ 0 ∨ le req 2 2 ≠ req.length - 4) →
       ∃ t, exec c s = .next t ∧ t.out = s.out ++ [vendorRsp x.carrier cmd stSecField []]
       ∧ t.sec.slots = s.sec.slots ∧ t = { s with sec := t.sec, out := t.out }))
   ∧ (∀ (s : State) (sid : BitVec 32) (body : Bytes) (x : Session), InSession s sid x → x.tenant = true →
     deliverFieldOk body 40 = true → le body 2 2 ∈ [4, 32, 64, 128] → (byteAt body 4 = 0 ∨ byteAt body 4 = 2) →
     (s.slot (byteAt body 0)).valid = false → (∀ e ∈ s.flc.media, e.1 < 32) →
     let k : KeySlot := ⟨true, slice body 8 32, 0, byteAt body 4, bit (byteAt body 5) 0, bit (byteAt body 5) 1,
       byteAt body 1 == 0xFF, if byteAt body 1 = 0xFF then 0 else byteAt body 1, le body 2 2, x.sid⟩
     (le body 2 2 = 32 → s.tierCHeld k = false) →
     ∃ t, exec (.keyDeliver sid (vendorReq 1 body)) s = .next t ∧ t.slot (byteAt body 0) = k
       ∧ t.out = s.out ++ [vendorRsp x.carrier 1 stOk []]
       ∧ (∀ n, n ≠ byteAt body 0 → (le body 2 2 ≠ 32 ∨ n < 72 ∨ 104 ≤ n) → t.slot n = s.slot n)
       ∧ t = { s with sec := t.sec, out := t.out })
   ∧ (∀ (s : State) (sid : BitVec 32) (body key : Bytes) (x : Session), InSession s sid x → x.tenant = true →
     deliverFieldOk body 48 = true → (s.slot 1).valid = true → (byteAt body 4 = 0 ∨ byteAt body 4 = 2) →
     (s.slot (byteAt body 0)).valid = false → keyUnwrap3394 s.wrapKey (slice body 8 40) = some key →
     ∃ t, exec (.keyUnwrap sid (vendorReq 2 body)) s = .next t ∧ (t.slot (byteAt body 0)).key = key
       ∧ (t.slot (byteAt body 0)).valid = true ∧ (t.slot (byteAt body 0)).engine = 64
       ∧ (t.slot (byteAt body 0)).origin = 2 ∧ t.out = s.out ++ [vendorRsp x.carrier 2 stOk []]
       ∧ (∀ n, n ≠ byteAt body 0 → t.slot n = s.slot n) ∧ t = { s with sec := t.sec, out := t.out })
   ∧ (∀ (s : State) (sid : BitVec 32) (n : Byte) (x : Session), InSession s sid x → x.tenant = true →
     tenantSlot n.toNat = true →
     let k := s.slot n.toNat
     (k.valid = true → k.engine = 64 → k.origin = 0 → k.noExp = false → (s.slot 1).valid = true →
       ∃ t, exec (.keyWrap sid (vendorReq 3 [n])) s = .next t
         ∧ t.out = s.out ++ [vendorRsp x.carrier 3 stOk (keyWrap3394 s.wrapKey k.key)] ∧ t.sec.slots = s.sec.slots
         ∧ t = { s with sec := t.sec, out := t.out })
     ∧ (k.noExp = true ∨ k.origin ≠ 0 ∨ k.engine ≠ 64 ∨ k.valid = false →
       ∃ t, exec (.keyWrap sid (vendorReq 3 [n])) s = .next t
       ∧ t.out = s.out ++ [vendorRsp x.carrier 3 stSecNoExport []] ∧ t = { s with sec := t.sec, out := t.out })
     ∧ ∃ t, exec (.keyZeroise sid (vendorReq 4 [n])) s = .next t ∧ (∀ e ∈ t.sec.slots, e.2.valid = true → 168 ≤ e.1 →
         n.toNat ≠ 0xFF ∧ e.1 ≠ n.toNat)
       ∧ ∃ l, t.out = s.out ++ l ++ [vendorRsp x.carrier 4 stOk []])
   ∧ ∀ (s : State) (sid : BitVec 32) (stream sub : Nat) (rx : Bool) (key : Bytes) (x : Session), InSession s sid x →
     stream < 33 → sub < 3 →
     (x.tenant = true → ∃ t, exec (.ideKmKeyProg sid stream sub rx key) s = .next t
       ∧ tfind t.sec.ide (6 * stream + 2 * sub + b2n rx) = some (x.sid, slice key 0 32)
       ∧ (∀ k, k ≠ 6 * stream + 2 * sub + b2n rx → tfind t.sec.ide k = tfind s.sec.ide k) ∧ t = { s with sec := t.sec })
     ∧ (x.tenant = false → ∃ t, exec (.ideKmKeyProg sid stream sub rx key) s = .next t ∧ t.sec.ide = s.sec.ide))
  ∧ (∀ (s : State) (sid : BitVec 32) (body : Bytes) (x : Session), InSession s sid x →
       (body.length = 36 → (s.slot 0).usable engCart 0 = true → ∃ t cart k,
         exec (.cartoucheGet sid (vendorReq 5 body)) s = .next t
         ∧ t.out = s.out ++ [vendorRsp x.carrier 5 stOk (cart ++ ecdsaSign (beNat (s.slot 0).key) k (sha384 cart))]
         ∧ slice cart 32 32 = body.drop 4
         ∧ byteAt cart 0 = 1 ∧ le cart 4 4 = s.sec.setId % 2 ^ 32 ∧ le cart 8 4 = s.sec.epoch % 2 ^ 32
         ∧ le cart 12 4 = (cart.length + 96) % 2 ^ 32 ∧ le cart 16 4 = le body 0 4
         ∧ (∀ d, s.sec.tenantId = some d → slice cart 64 48 = slice d 0 48)
         ∧ t = { s with sec := t.sec, free := t.free, out := t.out })
       ∧ (body.length = 4 → byteAt body 0 < 32 → byteAt body 1 = 0 →
         let l := ((s.part (byteAt body 0)).log.drop (le body 2 2)).take 128
         ∃ t, exec (.cartoucheLog sid (vendorReq 6 body)) s = .next t
           ∧ t.out = s.out ++ [vendorRsp x.carrier 6 stOk (leBytes 2 l.length ++ l.flatten)]
           ∧ t = { s with sec := t.sec, out := t.out }))

/-! ## Power, resets and management -/

/-- Power comes up: AUX-good starts the count and the module; the straps are latched 10 ms later and name the boot; the ROM
runs the slot whose manifest signature and Thimble firmware verify, or stays in ROM (R324, R357, R366); the rails come up once
the other boot parts have verified, which the spec leaves open (notes/assumptions/82.md), and 10 ms after main-good the module
runs with both tiers blank, every open round aborted and its load parts awaited (R304, R375, R376, R377, R379, R114).

AUX power has two sources: the loss of the one in use hands over and is reported; with neither left all but the stores is
gone: the tiers, the Graticule, the Meridian's lock; the configuration, the epoch, tier C and the image stay (R375, R311). -/
def Obligations.ModulePowersUpAndDown : Prop :=
  ((∀ s : State, s.pwr.auxOn = false → s.pwr.tripHold = false → ∃ t, exec .auxGood s = .next t ∧ t.now = 0
     ∧ t.pwr.phase = .auxOnly ∧ t.pwr.lastStart = 0 ∧ t.pwr.aux12 = true ∧ t.pwr.latched = false
     ∧ t = { s with now := 0, pwr := t.pwr })
   ∧ (∀ (s : State) (pins : BitVec 10), s.pwr.phase = .auxOnly → s.pwr.latched = false → s.pwr.auxOn = true →
     ∃ t, exec (.strapLatch pins) s = .next t ∧ t.pwr.latched = true ∧ t.pwr.boot = field pins.toNat 0 2
       ∧ t.pwr.slotId = field pins.toNat 2 6 ∧ t.pwr.lc = field pins.toNat 8 2
       ∧ t.now = (s.atLeast (s.pwr.stepAt + 10000000)).now
       ∧ (field pins.toNat 0 2 = 2 → t.pwr.rom = true ∧ t.sec = s.sec ∧ t.fw = s.fw)
       ∧ (field pins.toNat 0 2 ≠ 2 → s.fw.image ≠ 1 →
         (s.bootSlot = none → t.pwr.rom = true ∧ t.sec = s.sec ∧ t.fw = s.fw)
         ∧ ∀ k, s.bootSlot = some k → t.pwr.rom = false
           ∧ t.fw = { s.fw with running := k, bootOk := s.slotVerifies k [1, 2] }
           ∧ t.sec.m1 = manDigest t.fw.manifest 0 ∧ (t.slot 1).valid = true)
       ∧ (field pins.toNat 0 2 ≠ 2 → s.fw.image = 1 → t.fw.running = 0 ∧ t.fw.slotB = 4 ∧ t.fw.image = 0))
   ∧ (∀ s : State,
     let first := if s.fw.image = 2 then 1 else 0
     (manSigned (s.fw.manIn first) = true → s.slotVerifies first [0] = true → s.bootSlot = some first)
     ∧ ∀ k, s.bootSlot = some k → manSigned (s.fw.manIn k) = true ∧ s.slotVerifies k [0] = true)
   ∧ (∀ s : State, s.pwr.phase = .auxOnly → s.pwr.latched = true → s.pwr.rom = false → s.pwr.v54 = true →
     (s.fw.bootOk = true → s.pwr.inlet ≤ 45 →
       exec .mainRailsEnable s = .next { s with pwr := { s.pwr with phase := .sequence, mainOk := false } })
     ∧ (s.fw.bootOk = false ∨ 45 < s.pwr.inlet → exec .mainRailsEnable s = .next s))
   ∧ (∀ s : State, s.pwr.phase = .sequence →
     (s.pwr.mainOk = false → exec .mainGood s = .next { s with pwr := { s.pwr with mainOk := true, stepAt := s.now } })
     ∧ (s.pwr.mainOk = true → ∀ bad dumpBad, ∃ t, exec (.runEntry bad dumpBad) s = .next t ∧ t.pwr.phase = .run
       ∧ t.now = (s.atLeast (s.pwr.stepAt + 10000000)).now
       ∧ t.tierA = [] ∧ t.tierB = [] ∧ t.mem.written = [] ∧ t.fw.load = 1 ∧ (∀ r, r < 64 → (t.round r).st.running = false)
       ∧ t.flc.st = (if t.flc.wp then 3 else 2) ∧ t.pwr.dwell.isSome = true ∧ t.rng.running = List.range 64
       ∧ (s.sec.pending = true → t.sec.pending = false ∧ s.sec.epoch < t.sec.epoch)))
   ∧ ∀ (s : State) (t0 : Nat), s.pwr.dwell = some t0 → ∃ t, exec .selvageDwellEnd s = .next t ∧ t.pwr.dwell = none
     ∧ t.now = (s.atLeast (t0 + (if s.pwr.phase = .holdup then 20000 else 1000000))).now
     ∧ t = { s with now := t.now, pwr := t.pwr })
  ∧ ((∀ s : State,
       (s.pwr.aux12 = true → s.pwr.aux54 = false → s.pwr.v54 = true → ∃ t, exec (.auxSourceLoss true) s = .next t
         ∧ t.pwr = { s.pwr with aux12 := false, aux54 := true }
         ∧ tget 0 t.evSeq srcPower = (tget 0 s.evSeq srcPower + 1) % 2 ^ 32 ∧ OnlyReports { s with pwr := t.pwr } t)
       ∧ (s.pwr.aux12 = true → s.pwr.aux54 = true → (∃ t, exec (.auxSourceLoss false) s = .next t
           ∧ t.pwr = { s.pwr with aux54 := false, v54 := false }
           ∧ tget 0 t.evSeq srcPower = (tget 0 s.evSeq srcPower + 1) % 2 ^ 32 ∧ OnlyReports { s with pwr := t.pwr } t)
         ∧ exec (.auxSourceLoss true) s = .next { s with pwr := { s.pwr with aux12 := false } }))
     ∧ ∀ s : State, (s.pwr.phase = .auxOnly ∨ s.pwr.phase = .offHeld) → ∃ t, exec .auxPowerLoss s = .next t
       ∧ t.pwr.phase = .offHeld ∧ t.pwr.auxOn = false ∧ t.tierA = [] ∧ t.tierB = [] ∧ t.mrd.marks = [] ∧ t.mrd.st = 0
       ∧ t.ops = [] ∧ t.layout = s.storedLayout ∧ t.sec.epoch = s.sec.epoch ∧ t.sec.tenantId = s.sec.tenantId
       ∧ t.sec.fused = s.sec.fused ∧ t.sec.latch = s.sec.latch ∧ t.sec.slots = [] ∧ t.flc.lblocks = s.flc.lblocks
       ∧ t.fw.manA = s.fw.manA ∧ t.fw.slotA = s.fw.slotA ∧ t.fw.image = s.fw.image ∧ t.fw.floor = s.fw.floor)

/-- Power fail and MOD_RESET_N by phase: SEQUENCE loses its rails, RUN enters HOLDUP from the bank or from main power, HOLDUP
runs to its end; the dump ends in OFF_HELD with every slot cleared, or in a start that nothing holds back; a held reset reads
1 after 2 s and 2 after 60 s; the management reset action, in its envelope, is one pulse, and is refused while the pin is low
(R240, R241, R376, R378, R382, R383, R391). -/
def Obligations.PowerFailAndReset : Prop :=
  (∀ (s : State) (c : Instr), c ∈ [Instr.pwrFailNAssert, .undervoltage54v] →
    (s.pwr.phase = .sequence → exec c s = .next { s with pwr := { s.pwr with phase := .auxOnly, mainOk := false, v54 := false } })
    ∧ (s.pwr.phase = .run → ∃ t d, exec c s = .next t ∧ t.pwr.phase = .holdup ∧ t.pwr.dump = some d ∧ d.fromBank = true
      ∧ d.energy = s.flc.energy ∧ t.ops = [] ∧ t.flc = s.flc ∧ SameMemory s t)
    ∧ (∀ d, s.pwr.phase = .holdup → s.pwr.dump = some d → exec c s =
      .next { s with pwr := { s.pwr with v54 := false, dump := some { d with fromBank := true } } }))
  ∧ (∀ (s : State) (n : Nat), 1000 ≤ n → s.pwr.rstLow = none →
    ((s.pwr.phase = .auxOnly ∨ s.pwr.phase = .sequence) → ∃ t, exec (.modResetNAssert n) s = .next t
      ∧ t.pwr.phase = .offHeld ∧ t.pwr.rstLow = some s.now ∧ t.tierA = [] ∧ t.sec.slots = [])
    ∧ (s.pwr.phase = .run → ∃ t d, exec (.modResetNAssert n) s = .next t ∧ t.pwr.phase = .holdup ∧ t.pwr.rstLow = some s.now
      ∧ t.pwr.dump = some d ∧ d.fromBank = false)
    ∧ (s.pwr.phase = .holdup → ∃ t, exec (.modResetNAssert n) s = .next t ∧ t.pwr.phase = .holdup
      ∧ t.pwr.rstLow = some s.now ∧ t = { s with pwr := t.pwr }))
  ∧ (∀ (s : State) (n : Nat), n < 100 → exec (.modResetNAssert n) s = .next s)
  ∧ (∀ (s : State) (n : Nat), 100 ≤ n → n < 1000 → s.pwr.rstLow = none → ∃ t, exec (.modResetNAssert n) s = .next t
    ∧ (t = { s with free := t.free } ∨ t.pwr.rstLow = some s.now))
  ∧ (∀ (s : State) (left : List Nat) (count : Nat), s.pwr.phase = .holdup →
    ∃ t, exec (.dumpEnd left count) s = .next t ∧ t.sec.slots = [] ∧ t.ops = [] ∧ t.tierA = []
    ∧ ((s.pwr.rstLow ≠ none ∨ s.pwr.v54 = false ∨ s.pwr.tripHold = true) → t.pwr.phase = .offHeld ∧ t.pwr.dumpDone = true
      ∧ t.pwr.keysClr = true)
    ∧ (s.pwr.rstLow = none → s.pwr.v54 = true → s.pwr.tripHold = false →
      (s.pwr.selfRst = true → t.pwr.phase = .auxOnly ∧ t.pwr.lastStart = 4)
      ∧ (s.pwr.selfRst = false → s.pwr.rstRel = true → t.pwr.phase = .auxOnly ∧ t.pwr.lastStart = 1)
      ∧ ∀ d, s.pwr.selfRst = false → s.pwr.rstRel = false → s.pwr.dump = some d → d.fromBank = true →
        t.pwr.phase = .auxOnly ∧ t.pwr.lastStart = 2))
  ∧ (∀ s : State, s.pwr.phase = .offHeld →
    (s.pwr.dumpDone = true → s.pwr.rstLow = none → s.pwr.tripHold = false → ∃ t, exec .v54Return s = .next t
      ∧ t.pwr.phase = .auxOnly ∧ t.pwr.lastStart = 2 ∧ t.pwr.v54 = true)
    ∧ ∀ t0, s.pwr.rstLow = some t0 →
      exec .v54Return s = .next { s with pwr := { s.pwr with v54 := true } }
      ∧ (s.pwr.v54 = true → s.pwr.tripHold = false → ∃ t, exec .modResetNRelease s = .next t ∧ t.pwr.phase = .auxOnly
        ∧ t.pwr.lastStart = 1 ∧ t.pwr.rstLow = none ∧ t.pwr.reset = 0)
      ∧ (∃ t, exec .resetHeldTimeout s = .next t ∧ t.pwr.reset = max s.pwr.reset 1
        ∧ t.now = (s.atLeast (t0 + 2000000000)).now ∧ t = { s with now := t.now, pwr := t.pwr })
      ∧ ∃ t, exec .resetStuckTimeout s = .next t ∧ t.pwr.reset = max s.pwr.reset 2
        ∧ t.now = (s.atLeast (t0 + 60000000000)).now ∧ t = { s with now := t.now, pwr := t.pwr })
  ∧ ∀ (s : State) (env : Envelope), s.thimbleUp = true → byteAt env.request 0 = 0xF0 →
    (s.envelopeOk env = false ∨ s.sec.lifecycle = 3 → exec (.mgmtResetAction env) s = .next (s.put (.mgmt mgmtRefused [])))
    ∧ (s.envelopeOk env = true → s.sec.lifecycle ≠ 3 →
      (s.pwr.rstLow ≠ none → exec (.mgmtResetAction env) s =
        .next ({ s with sec := { s.sec with seqFloor := env.seq.toNat } }.put (.mgmt mgmtRefused [])))
      ∧ (s.pwr.rstLow = none → s.pwr.phase = .run → ∃ t, exec (.mgmtResetAction env) s = .next t ∧ t.pwr.phase = .holdup
        ∧ t.pwr.rstRel = true ∧ t.sec.seqFloor = env.seq.toNat ∧ t.out = s.out ++ [.mgmt stOk []])
      ∧ (s.pwr.rstLow = none → s.pwr.phase = .auxOnly → s.pwr.v54 = true → s.pwr.tripHold = false →
        ∃ t, exec (.mgmtResetAction env) s = .next t ∧ t.pwr.phase = .auxOnly ∧ t.pwr.lastStart = 1 ∧ t.pwr.latched = false
        ∧ t.out = s.out ++ [.mgmt stOk []]))

/-- Throttling moves the ceiling by 25 MHz between 925 and 1,850 while its condition lasts, and changes nothing but clock,
alert and its count; a trip takes the module to HOLDUP from main power, or off (R386, R387, R388).

The management link serves health reads whenever AUX power is good, with no authentication; any other action only in an
envelope that verifies under OPERATOR_KEY with a SEQ above the last one accepted, which a replay is not (R389, R390, R391). In
FAULT_SECURE only dump reads and the reset remain, in RETIRED nothing (R3); which actions these are on the link is the model's
reading (notes/assumptions/47.md, 82.md). -/
def Obligations.ThermalControlAndManagement : Prop :=
  ((∀ (s : State) (j i : Nat),
     let sensed := { s with pwr := { s.pwr with junction := j, inlet := i } }
     (s.rails = true → s.pwr.alert = false → (100 ≤ j ∨ 45 ≤ i) → ∃ t, exec (.thermalAlert j i) s = .next t
       ∧ t.pwr = { s.pwr with alert := true, junction := j, inlet := i }
       ∧ tget 0 t.evSeq srcPower = (tget 0 s.evSeq srcPower + 1) % 2 ^ 32 ∧ OnlyReports { s with pwr := t.pwr } t)
     ∧ (s.rails = false ∨ s.pwr.alert = true ∨ (j < 100 ∧ i < 45) → exec (.thermalAlert j i) s = .next sensed)
     ∧ (s.rails = true → j < 95 → i < 43 → ∃ t, exec (.throttleStepUp j i) s = .next t ∧ t.pwr.alert = false
       ∧ t.pwr.ceiling = min 1850 (s.pwr.ceiling + 25) ∧ t.pwr.clock = s.pwr.clock ∧ OnlyReports { s with pwr := t.pwr } t)
     ∧ (s.rails = false ∨ 95 ≤ j ∨ 43 ≤ i → exec (.throttleStepUp j i) s = .next sensed)
     ∧ ((110 ≤ j ∨ 60 ≤ i) →
       (s.pwr.phase = .run → ∃ t d, exec (.thermalTrip j i) s = .next t ∧ t.pwr.phase = .holdup ∧ t.pwr.tripped = true
         ∧ t.pwr.tripHold = true
         ∧ t.pwr.dump = some d ∧ d.fromBank = false)
       ∧ ((s.pwr.phase = .auxOnly ∨ s.pwr.phase = .sequence) → ∃ t, exec (.thermalTrip j i) s = .next t
         ∧ t.pwr.phase = .offHeld ∧ t.pwr.tripped = true ∧ t.pwr.tripHold = true))
     ∧ (j < 110 → i < 60 → exec (.thermalTrip j i) s = .next sensed))
   ∧ (∀ s : State,
     (s.rails = true → s.pwr.alert = true → (100 ≤ s.pwr.junction ∨ 45 ≤ s.pwr.inlet) →
       ∃ t, exec .throttleStepDown s = .next t
       ∧ t.pwr.ceiling = max 925 (s.pwr.ceiling - 25) ∧ t.pwr.clock = s.pwr.clock ∧ OnlyReports { s with pwr := t.pwr } t)
     ∧ (s.rails = false ∨ s.pwr.alert = false ∨ (s.pwr.junction < 100 ∧ s.pwr.inlet < 45) →
       exec .throttleStepDown s = .next s))
   ∧ ∀ s : State, s.pwr.rstLow.isSome = true → s.pwr.phase = .offHeld → s.pwr.tripHold = true → s.pwr.v54 = true →
     (s.cool = false → ∃ t, exec .modResetNRelease s = .next t ∧ t.pwr.phase = .offHeld ∧ t.pwr.tripHold = true)
     ∧ (s.cool = true → ∃ t, exec .modResetNRelease s = .next t ∧ t.pwr.phase = .auxOnly ∧ t.pwr.tripHold = false
         ∧ t.pwr.tripped = s.pwr.tripped
       ∧ t.pwr.lastStart = 3))
  ∧ ((∀ (s : State) (off : Nat), s.pwr.auxOn = true →
       (∀ v, s.health off = some v → exec (.mgmtHealthRead off) s = .next (s.put (.mgmt stOk (leBytes 4 v))))
       ∧ (s.health off = none → exec (.mgmtHealthRead off) s = .next (s.put (.mgmt mgmtRefused []))))
     ∧ (∀ (s : State) (env : Envelope), s.thimbleUp = true →
       let opc := byteAt env.request 0
       (s.envelopeOk env = true → s.sec.lifecycle < 2 → opc = 0x96 → ∃ t, exec (.mgmtEnvelopedRequest env) s = .next t
         ∧ ((ecParse (slice (env.request.drop 64) 0 97)).isSome = true →
           t.sec = { s.sec with opKey := some (slice (env.request.drop 64) 0 97), seqFloor := 0 }
           ∧ t.out = s.out ++ [.mgmt stOk []])
         ∧ ((ecParse (slice (env.request.drop 64) 0 97)).isSome = false →
           t.sec = { s.sec with seqFloor := env.seq.toNat } ∧ t.out = s.out ++ [.mgmt stSecField []])
         ∧ t = { s with sec := t.sec, out := t.out })
       ∧ (s.envelopeOk env = true → s.sec.lifecycle < 2 → opc = 0x91 → s.isRun = true → s.sec.switchRun = false →
         ∃ t, exec (.mgmtEnvelopedRequest env) s = .next t ∧ t.secretsGone ∧ t.sec.pending = true
           ∧ t.sec.seqFloor = env.seq.toNat ∧ t.tierA = [] ∧ t.tierB = [])
       ∧ (∀ x, s.envelopeOk env = true → s.sec.lifecycle ≠ 3 → opc = 0x95 → byteAt env.request 8 = 0 →
         dumpFieldOk (slice env.request 0 64) = true → s.fw.dump = some x →
         exec (.mgmtEnvelopedRequest env) s = .next ({ s with sec := { s.sec with seqFloor := env.seq.toNat } }.put
           (.mgmt stOk ((List.range (le env.request 32 4)).map (fun i => x.byte (le env.request 24 8 + i))))))
       ∧ (s.envelopeOk env = false ∨ s.sec.lifecycle = 3
           ∨ (s.sec.lifecycle = 2 ∧ opc ≠ 0xF0 ∧ ¬ (opc = 0x95 ∧ byteAt env.request 8 = 0)) →
         exec (.mgmtEnvelopedRequest env) s = .next (s.put (.mgmt mgmtRefused []))))
     ∧ (∀ (s : State) (env : Envelope), env.seq.toNat ≤ s.sec.seqFloor → s.envelopeOk env = false)
     ∧ ∀ (s : State) (env : Envelope), s.sec.opKey = none → s.envelopeOk env = false)

end
end

