-- ==== Sys2Proof/Laws/Mem.lean ====
section
/-! SUPPORT. The byte memory: its canonical form is kept by every operation; a byte written reads back, and no other byte
changes. -/

namespace Sys2Proof.Machine

theorem memSorted_mono {m : Mem} {lo lo' : Nat} (h : lo' ≤ lo) (hm : memSorted lo m = true) : memSorted lo' m = true := by
  cases m with
  | nil => rfl
  | cons c m => simp only [memSorted, Bool.and_eq_true, decide_eq_true_eq] at hm ⊢; exact ⟨⟨by omega, hm.1.2⟩, hm.2⟩

theorem memSorted_cons {lo a : Nat} {b : Byte} {m : Mem} :
    memSorted lo ((a, b) :: m) = true ↔ lo ≤ a ∧ b ≠ memDefault ∧ memSorted (a + 1) m = true := by
  simp [memSorted, and_assoc]

/-- Below its first address a sorted memory lists nothing. -/
theorem rdByte_below {m : Mem} {lo a : Nat} (hm : memSorted lo m = true) (h : a < lo) : rdByte m a = memDefault := by
  induction m generalizing lo with
  | nil => rfl
  | cons c m ih =>
    obtain ⟨a', b⟩ := c
    rw [memSorted_cons] at hm
    rw [rdByte, if_neg (by omega)]
    exact ih hm.2.2 (by omega)

theorem memSorted_wrByte {m : Mem} {lo a : Nat} {v : Byte} (hm : memSorted lo m = true) (h : lo ≤ a) :
    memSorted lo (wrByte a v m) = true := by
  induction m generalizing lo with
  | nil => by_cases hv : v = memDefault <;> simp [wrByte, hv, memSorted, h]
  | cons c m ih =>
    obtain ⟨a', b⟩ := c
    have hc := memSorted_cons.1 hm
    rw [wrByte]
    split
    · rename_i he; subst he
      split
      · exact memSorted_mono (by omega) hc.2.2
      · exact memSorted_cons.2 ⟨h, ‹_›, hc.2.2⟩
    · split
      · split
        · exact hm
        · exact memSorted_cons.2 ⟨h, ‹_›, memSorted_cons.2 ⟨by omega, hc.2⟩⟩
      · exact memSorted_cons.2 ⟨hc.1, hc.2.1, ih hc.2.2 (by omega)⟩

/-- A write of one byte keeps the canonical form. -/
theorem memory_wf_wrByte {m : Mem} (hm : Memory.wf m = true) (a : Nat) (v : Byte) : Memory.wf (wrByte a v m) = true :=
  memSorted_wrByte hm (Nat.zero_le a)

/-- A write of bytes keeps the canonical form. -/
theorem memory_wf_wrBytes {bs : Bytes} {m : Mem} (hm : Memory.wf m = true) (a : Nat) : Memory.wf (wrBytes a bs m) = true := by
  induction bs generalizing a m with
  | nil => exact hm
  | cons b bs ih => exact ih (memory_wf_wrByte hm a b) (a + 1)

theorem memSorted_filter {m : Mem} {lo : Nat} (p : Host.Cell → Bool) (hm : memSorted lo m = true) :
    memSorted lo (m.filter p) = true := by
  induction m generalizing lo with
  | nil => rfl
  | cons c m ih =>
    obtain ⟨a, b⟩ := c
    rw [memSorted_cons] at hm
    by_cases hp : p (a, b) = true
    · rw [List.filter_cons_of_pos hp]; exact memSorted_cons.2 ⟨hm.1, hm.2.1, ih hm.2.2⟩
    · rw [List.filter_cons_of_neg hp]; exact memSorted_mono (by omega) (ih hm.2.2)

/-- Clearing a range keeps the canonical form. -/
theorem memory_wf_clearMem {m : Mem} (hm : Memory.wf m = true) (lo hi : Nat) : Memory.wf (clearMem lo hi m) = true :=
  memSorted_filter _ hm

theorem rdByte_wrByte_sorted {m : Mem} {lo a : Nat} {v : Byte} (hm : memSorted lo m = true) (h : lo ≤ a) (x : Nat) :
    rdByte (wrByte a v m) x = if x = a then v else rdByte m x := by
  induction m generalizing lo with
  | nil => by_cases hv : v = memDefault <;> by_cases hx : x = a <;> simp [wrByte, hv, rdByte, hx]
  | cons c m ih =>
    obtain ⟨a', b⟩ := c
    have hc := memSorted_cons.1 hm
    rw [wrByte]
    split
    · rename_i he; subst he
      split
      · rename_i hv
        by_cases hx : x = a
        · subst hx; simp [rdByte_below hc.2.2 (Nat.lt_succ_self _), hv]
        · simp [rdByte, hx]
      · by_cases hx : x = a <;> simp [rdByte, hx]
    · rename_i hne
      split
      · rename_i hlt
        split
        · rename_i hv
          by_cases hx : x = a
          · subst hx
            rw [rdByte, if_neg hne, rdByte_below hc.2.2 (by omega), if_pos rfl, hv]
          · rw [if_neg hx]
        · by_cases hx : x = a
          · simp [rdByte, hx]
          · rw [rdByte, if_neg hx]
      · by_cases hx : x = a'
        · subst hx; rw [rdByte, if_pos rfl, if_neg (Ne.symm hne), rdByte, if_pos rfl]
        · rw [rdByte, if_neg hx, ih hc.2.2 (by omega), rdByte, if_neg hx]

/-- In a canonical memory, a read after a write of one byte gives the byte written, and every other byte as before. -/
theorem rdByte_wrByte {m : Mem} (hm : Memory.wf m = true) (a : Nat) (v : Byte) (x : Nat) :
    rdByte (wrByte a v m) x = if x = a then v else rdByte m x :=
  rdByte_wrByte_sorted hm (Nat.zero_le a) x

/-- A write of bytes leaves every byte outside its range. -/
theorem rdByte_wrBytes_outside {bs : Bytes} {m : Mem} (hm : Memory.wf m = true) {a x : Nat} (h : x < a ∨ a + bs.length ≤ x) :
    rdByte (wrBytes a bs m) x = rdByte m x := by
  induction bs generalizing a m with
  | nil => rfl
  | cons b bs ih =>
    simp only [List.length_cons] at h
    rw [wrBytes, ih (memory_wf_wrByte hm a b) (by omega), rdByte_wrByte hm, if_neg (by omega)]

/-- What was written reads back. -/
theorem rdBytes_wrBytes {bs : Bytes} {m : Mem} (hm : Memory.wf m = true) (a : Nat) :
    rdBytes (wrBytes a bs m) a bs.length = bs := by
  induction bs generalizing a m with
  | nil => rfl
  | cons b bs ih =>
    have h := memory_wf_wrByte hm a b
    simp only [wrBytes, List.length_cons, rdBytes]
    rw [ih h, rdByte_wrBytes_outside h (by omega), rdByte_wrByte hm, if_pos rfl]

end Sys2Proof.Machine
end

