-- ==== Sys2Proof/Laws/State.lean ====
section
/-! SUPPORT. One lemma per field for each update of the state: the field that it changes, and every other as it was. -/

namespace Sys2Proof.Machine

variable (s : State)

@[simp] theorem setRep_pending (r : Rep) : (setRep s r).pending = s.pending := rfl
@[simp] theorem setRep_out (r : Rep) : (setRep s r).out = r.out := rfl
@[simp] theorem setRep_free (r : Rep) : (setRep s r).free = s.free := rfl
@[simp] theorem setRep_now (r : Rep) : (setRep s r).now = s.now := rfl
@[simp] theorem setRep_glb (r : Rep) : (setRep s r).glb = s.glb := rfl
@[simp] theorem setRep_evSeq (r : Rep) : (setRep s r).evSeq = r.evSeq := rfl
@[simp] theorem setRep_cntMod (r : Rep) : (setRep s r).cntMod = r.cntMod := rfl
@[simp] theorem setRep_cntPart (r : Rep) : (setRep s r).cntPart = r.cntPart := rfl
@[simp] theorem setRep_hif (r : Rep) : (setRep s r).hif = r.hif := rfl
@[simp] theorem setRep_ops (r : Rep) : (setRep s r).ops = r.ops := rfl
@[simp] theorem setRep_nextOp (r : Rep) : (setRep s r).nextOp = s.nextOp := rfl
@[simp] theorem setRep_parts (r : Rep) : (setRep s r).parts = s.parts := rfl
@[simp] theorem setRep_layout (r : Rep) : (setRep s r).layout = s.layout := rfl
@[simp] theorem setRep_panels (r : Rep) : (setRep s r).panels = s.panels := rfl
@[simp] theorem setRep_regions (r : Rep) : (setRep s r).regions = s.regions := rfl
@[simp] theorem setRep_nextDef (r : Rep) : (setRep s r).nextDef = s.nextDef := rfl
@[simp] theorem setRep_xfers (r : Rep) : (setRep s r).xfers = s.xfers := rfl
@[simp] theorem setRep_nextX (r : Rep) : (setRep s r).nextX = s.nextX := rfl
@[simp] theorem setRep_rounds (r : Rep) : (setRep s r).rounds = s.rounds := rfl
@[simp] theorem setRep_ingest (r : Rep) : (setRep s r).ingest = s.ingest := rfl
@[simp] theorem setRep_loom (r : Rep) : (setRep s r).loom = s.loom := rfl
@[simp] theorem setRep_shc (r : Rep) : (setRep s r).shc = s.shc := rfl
@[simp] theorem setRep_grus (r : Rep) : (setRep s r).grus = s.grus := rfl
@[simp] theorem setRep_keysets (r : Rep) : (setRep s r).keysets = s.keysets := rfl
@[simp] theorem setRep_progs (r : Rep) : (setRep s r).progs = s.progs := rfl
@[simp] theorem setRep_gruRuns (r : Rep) : (setRep s r).gruRuns = s.gruRuns := rfl
@[simp] theorem setRep_tierA (r : Rep) : (setRep s r).tierA = s.tierA := rfl
@[simp] theorem setRep_tierB (r : Rep) : (setRep s r).tierB = s.tierB := rfl
@[simp] theorem setRep_mem (r : Rep) : (setRep s r).mem = s.mem := rfl
@[simp] theorem setRep_flc (r : Rep) : (setRep s r).flc = s.flc := rfl
@[simp] theorem setRep_fab (r : Rep) : (setRep s r).fab = s.fab := rfl
@[simp] theorem setRep_mrd (r : Rep) : (setRep s r).mrd = s.mrd := rfl
@[simp] theorem setRep_sec (r : Rep) : (setRep s r).sec = s.sec := rfl
@[simp] theorem setRep_rng (r : Rep) : (setRep s r).rng = s.rng := rfl
@[simp] theorem setRep_fw (r : Rep) : (setRep s r).fw = s.fw := rfl
@[simp] theorem setRep_pwr (r : Rep) : (setRep s r).pwr = s.pwr := rfl

@[simp] theorem State.put_pending (o : Output) : (s.put o).pending = s.pending := rfl
@[simp] theorem State.put_out (o : Output) : (s.put o).out = s.out ++ [o] := rfl
@[simp] theorem State.put_free (o : Output) : (s.put o).free = s.free := rfl
@[simp] theorem State.put_now (o : Output) : (s.put o).now = s.now := rfl
@[simp] theorem State.put_glb (o : Output) : (s.put o).glb = s.glb := rfl
@[simp] theorem State.put_evSeq (o : Output) : (s.put o).evSeq = s.evSeq := rfl
@[simp] theorem State.put_cntMod (o : Output) : (s.put o).cntMod = s.cntMod := rfl
@[simp] theorem State.put_cntPart (o : Output) : (s.put o).cntPart = s.cntPart := rfl
@[simp] theorem State.put_hif (o : Output) : (s.put o).hif = s.hif := rfl
@[simp] theorem State.put_ops (o : Output) : (s.put o).ops = s.ops := rfl
@[simp] theorem State.put_nextOp (o : Output) : (s.put o).nextOp = s.nextOp := rfl
@[simp] theorem State.put_parts (o : Output) : (s.put o).parts = s.parts := rfl
@[simp] theorem State.put_layout (o : Output) : (s.put o).layout = s.layout := rfl
@[simp] theorem State.put_panels (o : Output) : (s.put o).panels = s.panels := rfl
@[simp] theorem State.put_regions (o : Output) : (s.put o).regions = s.regions := rfl
@[simp] theorem State.put_nextDef (o : Output) : (s.put o).nextDef = s.nextDef := rfl
@[simp] theorem State.put_xfers (o : Output) : (s.put o).xfers = s.xfers := rfl
@[simp] theorem State.put_nextX (o : Output) : (s.put o).nextX = s.nextX := rfl
@[simp] theorem State.put_rounds (o : Output) : (s.put o).rounds = s.rounds := rfl
@[simp] theorem State.put_ingest (o : Output) : (s.put o).ingest = s.ingest := rfl
@[simp] theorem State.put_loom (o : Output) : (s.put o).loom = s.loom := rfl
@[simp] theorem State.put_shc (o : Output) : (s.put o).shc = s.shc := rfl
@[simp] theorem State.put_grus (o : Output) : (s.put o).grus = s.grus := rfl
@[simp] theorem State.put_keysets (o : Output) : (s.put o).keysets = s.keysets := rfl
@[simp] theorem State.put_progs (o : Output) : (s.put o).progs = s.progs := rfl
@[simp] theorem State.put_gruRuns (o : Output) : (s.put o).gruRuns = s.gruRuns := rfl
@[simp] theorem State.put_tierA (o : Output) : (s.put o).tierA = s.tierA := rfl
@[simp] theorem State.put_tierB (o : Output) : (s.put o).tierB = s.tierB := rfl
@[simp] theorem State.put_mem (o : Output) : (s.put o).mem = s.mem := rfl
@[simp] theorem State.put_flc (o : Output) : (s.put o).flc = s.flc := rfl
@[simp] theorem State.put_fab (o : Output) : (s.put o).fab = s.fab := rfl
@[simp] theorem State.put_mrd (o : Output) : (s.put o).mrd = s.mrd := rfl
@[simp] theorem State.put_sec (o : Output) : (s.put o).sec = s.sec := rfl
@[simp] theorem State.put_rng (o : Output) : (s.put o).rng = s.rng := rfl
@[simp] theorem State.put_fw (o : Output) : (s.put o).fw = s.fw := rfl
@[simp] theorem State.put_pwr (o : Output) : (s.put o).pwr = s.pwr := rfl

@[simp] theorem State.setOp_pending (id : Nat) (o : Op) : (s.setOp id o).pending = s.pending := rfl
@[simp] theorem State.setOp_out (id : Nat) (o : Op) : (s.setOp id o).out = s.out := rfl
@[simp] theorem State.setOp_free (id : Nat) (o : Op) : (s.setOp id o).free = s.free := rfl
@[simp] theorem State.setOp_now (id : Nat) (o : Op) : (s.setOp id o).now = s.now := rfl
@[simp] theorem State.setOp_glb (id : Nat) (o : Op) : (s.setOp id o).glb = s.glb := rfl
@[simp] theorem State.setOp_evSeq (id : Nat) (o : Op) : (s.setOp id o).evSeq = s.evSeq := rfl
@[simp] theorem State.setOp_cntMod (id : Nat) (o : Op) : (s.setOp id o).cntMod = s.cntMod := rfl
@[simp] theorem State.setOp_cntPart (id : Nat) (o : Op) : (s.setOp id o).cntPart = s.cntPart := rfl
@[simp] theorem State.setOp_hif (id : Nat) (o : Op) : (s.setOp id o).hif = s.hif := rfl
@[simp] theorem State.setOp_ops (id : Nat) (o : Op) : (s.setOp id o).ops = tset id o s.ops := rfl
@[simp] theorem State.setOp_nextOp (id : Nat) (o : Op) : (s.setOp id o).nextOp = s.nextOp := rfl
@[simp] theorem State.setOp_parts (id : Nat) (o : Op) : (s.setOp id o).parts = s.parts := rfl
@[simp] theorem State.setOp_layout (id : Nat) (o : Op) : (s.setOp id o).layout = s.layout := rfl
@[simp] theorem State.setOp_panels (id : Nat) (o : Op) : (s.setOp id o).panels = s.panels := rfl
@[simp] theorem State.setOp_regions (id : Nat) (o : Op) : (s.setOp id o).regions = s.regions := rfl
@[simp] theorem State.setOp_nextDef (id : Nat) (o : Op) : (s.setOp id o).nextDef = s.nextDef := rfl
@[simp] theorem State.setOp_xfers (id : Nat) (o : Op) : (s.setOp id o).xfers = s.xfers := rfl
@[simp] theorem State.setOp_nextX (id : Nat) (o : Op) : (s.setOp id o).nextX = s.nextX := rfl
@[simp] theorem State.setOp_rounds (id : Nat) (o : Op) : (s.setOp id o).rounds = s.rounds := rfl
@[simp] theorem State.setOp_ingest (id : Nat) (o : Op) : (s.setOp id o).ingest = s.ingest := rfl
@[simp] theorem State.setOp_loom (id : Nat) (o : Op) : (s.setOp id o).loom = s.loom := rfl
@[simp] theorem State.setOp_shc (id : Nat) (o : Op) : (s.setOp id o).shc = s.shc := rfl
@[simp] theorem State.setOp_grus (id : Nat) (o : Op) : (s.setOp id o).grus = s.grus := rfl
@[simp] theorem State.setOp_keysets (id : Nat) (o : Op) : (s.setOp id o).keysets = s.keysets := rfl
@[simp] theorem State.setOp_progs (id : Nat) (o : Op) : (s.setOp id o).progs = s.progs := rfl
@[simp] theorem State.setOp_gruRuns (id : Nat) (o : Op) : (s.setOp id o).gruRuns = s.gruRuns := rfl
@[simp] theorem State.setOp_tierA (id : Nat) (o : Op) : (s.setOp id o).tierA = s.tierA := rfl
@[simp] theorem State.setOp_tierB (id : Nat) (o : Op) : (s.setOp id o).tierB = s.tierB := rfl
@[simp] theorem State.setOp_mem (id : Nat) (o : Op) : (s.setOp id o).mem = s.mem := rfl
@[simp] theorem State.setOp_flc (id : Nat) (o : Op) : (s.setOp id o).flc = s.flc := rfl
@[simp] theorem State.setOp_fab (id : Nat) (o : Op) : (s.setOp id o).fab = s.fab := rfl
@[simp] theorem State.setOp_mrd (id : Nat) (o : Op) : (s.setOp id o).mrd = s.mrd := rfl
@[simp] theorem State.setOp_sec (id : Nat) (o : Op) : (s.setOp id o).sec = s.sec := rfl
@[simp] theorem State.setOp_rng (id : Nat) (o : Op) : (s.setOp id o).rng = s.rng := rfl
@[simp] theorem State.setOp_fw (id : Nat) (o : Op) : (s.setOp id o).fw = s.fw := rfl
@[simp] theorem State.setOp_pwr (id : Nat) (o : Op) : (s.setOp id o).pwr = s.pwr := rfl

@[simp] theorem State.setFn_pending (f : Nat) (h : HifFn) : (s.setFn f h).pending = s.pending := rfl
@[simp] theorem State.setFn_out (f : Nat) (h : HifFn) : (s.setFn f h).out = s.out := rfl
@[simp] theorem State.setFn_free (f : Nat) (h : HifFn) : (s.setFn f h).free = s.free := rfl
@[simp] theorem State.setFn_now (f : Nat) (h : HifFn) : (s.setFn f h).now = s.now := rfl
@[simp] theorem State.setFn_glb (f : Nat) (h : HifFn) : (s.setFn f h).glb = s.glb := rfl
@[simp] theorem State.setFn_evSeq (f : Nat) (h : HifFn) : (s.setFn f h).evSeq = s.evSeq := rfl
@[simp] theorem State.setFn_cntMod (f : Nat) (h : HifFn) : (s.setFn f h).cntMod = s.cntMod := rfl
@[simp] theorem State.setFn_cntPart (f : Nat) (h : HifFn) : (s.setFn f h).cntPart = s.cntPart := rfl
@[simp] theorem State.setFn_hif (f : Nat) (h : HifFn) : (s.setFn f h).hif = tset f h s.hif := rfl
@[simp] theorem State.setFn_ops (f : Nat) (h : HifFn) : (s.setFn f h).ops = s.ops := rfl
@[simp] theorem State.setFn_nextOp (f : Nat) (h : HifFn) : (s.setFn f h).nextOp = s.nextOp := rfl
@[simp] theorem State.setFn_parts (f : Nat) (h : HifFn) : (s.setFn f h).parts = s.parts := rfl
@[simp] theorem State.setFn_layout (f : Nat) (h : HifFn) : (s.setFn f h).layout = s.layout := rfl
@[simp] theorem State.setFn_panels (f : Nat) (h : HifFn) : (s.setFn f h).panels = s.panels := rfl
@[simp] theorem State.setFn_regions (f : Nat) (h : HifFn) : (s.setFn f h).regions = s.regions := rfl
@[simp] theorem State.setFn_nextDef (f : Nat) (h : HifFn) : (s.setFn f h).nextDef = s.nextDef := rfl
@[simp] theorem State.setFn_xfers (f : Nat) (h : HifFn) : (s.setFn f h).xfers = s.xfers := rfl
@[simp] theorem State.setFn_nextX (f : Nat) (h : HifFn) : (s.setFn f h).nextX = s.nextX := rfl
@[simp] theorem State.setFn_rounds (f : Nat) (h : HifFn) : (s.setFn f h).rounds = s.rounds := rfl
@[simp] theorem State.setFn_ingest (f : Nat) (h : HifFn) : (s.setFn f h).ingest = s.ingest := rfl
@[simp] theorem State.setFn_loom (f : Nat) (h : HifFn) : (s.setFn f h).loom = s.loom := rfl
@[simp] theorem State.setFn_shc (f : Nat) (h : HifFn) : (s.setFn f h).shc = s.shc := rfl
@[simp] theorem State.setFn_grus (f : Nat) (h : HifFn) : (s.setFn f h).grus = s.grus := rfl
@[simp] theorem State.setFn_keysets (f : Nat) (h : HifFn) : (s.setFn f h).keysets = s.keysets := rfl
@[simp] theorem State.setFn_progs (f : Nat) (h : HifFn) : (s.setFn f h).progs = s.progs := rfl
@[simp] theorem State.setFn_gruRuns (f : Nat) (h : HifFn) : (s.setFn f h).gruRuns = s.gruRuns := rfl
@[simp] theorem State.setFn_tierA (f : Nat) (h : HifFn) : (s.setFn f h).tierA = s.tierA := rfl
@[simp] theorem State.setFn_tierB (f : Nat) (h : HifFn) : (s.setFn f h).tierB = s.tierB := rfl
@[simp] theorem State.setFn_mem (f : Nat) (h : HifFn) : (s.setFn f h).mem = s.mem := rfl
@[simp] theorem State.setFn_flc (f : Nat) (h : HifFn) : (s.setFn f h).flc = s.flc := rfl
@[simp] theorem State.setFn_fab (f : Nat) (h : HifFn) : (s.setFn f h).fab = s.fab := rfl
@[simp] theorem State.setFn_mrd (f : Nat) (h : HifFn) : (s.setFn f h).mrd = s.mrd := rfl
@[simp] theorem State.setFn_sec (f : Nat) (h : HifFn) : (s.setFn f h).sec = s.sec := rfl
@[simp] theorem State.setFn_rng (f : Nat) (h : HifFn) : (s.setFn f h).rng = s.rng := rfl
@[simp] theorem State.setFn_fw (f : Nat) (h : HifFn) : (s.setFn f h).fw = s.fw := rfl
@[simp] theorem State.setFn_pwr (f : Nat) (h : HifFn) : (s.setFn f h).pwr = s.pwr := rfl

@[simp] theorem State.setPart_pending (p : Nat) (x : Part) : (s.setPart p x).pending = s.pending := rfl
@[simp] theorem State.setPart_out (p : Nat) (x : Part) : (s.setPart p x).out = s.out := rfl
@[simp] theorem State.setPart_free (p : Nat) (x : Part) : (s.setPart p x).free = s.free := rfl
@[simp] theorem State.setPart_now (p : Nat) (x : Part) : (s.setPart p x).now = s.now := rfl
@[simp] theorem State.setPart_glb (p : Nat) (x : Part) : (s.setPart p x).glb = s.glb := rfl
@[simp] theorem State.setPart_evSeq (p : Nat) (x : Part) : (s.setPart p x).evSeq = s.evSeq := rfl
@[simp] theorem State.setPart_cntMod (p : Nat) (x : Part) : (s.setPart p x).cntMod = s.cntMod := rfl
@[simp] theorem State.setPart_cntPart (p : Nat) (x : Part) : (s.setPart p x).cntPart = s.cntPart := rfl
@[simp] theorem State.setPart_hif (p : Nat) (x : Part) : (s.setPart p x).hif = s.hif := rfl
@[simp] theorem State.setPart_ops (p : Nat) (x : Part) : (s.setPart p x).ops = s.ops := rfl
@[simp] theorem State.setPart_nextOp (p : Nat) (x : Part) : (s.setPart p x).nextOp = s.nextOp := rfl
@[simp] theorem State.setPart_parts (p : Nat) (x : Part) : (s.setPart p x).parts = tset p x s.parts := rfl
@[simp] theorem State.setPart_layout (p : Nat) (x : Part) : (s.setPart p x).layout = s.layout := rfl
@[simp] theorem State.setPart_panels (p : Nat) (x : Part) : (s.setPart p x).panels = s.panels := rfl
@[simp] theorem State.setPart_regions (p : Nat) (x : Part) : (s.setPart p x).regions = s.regions := rfl
@[simp] theorem State.setPart_nextDef (p : Nat) (x : Part) : (s.setPart p x).nextDef = s.nextDef := rfl
@[simp] theorem State.setPart_xfers (p : Nat) (x : Part) : (s.setPart p x).xfers = s.xfers := rfl
@[simp] theorem State.setPart_nextX (p : Nat) (x : Part) : (s.setPart p x).nextX = s.nextX := rfl
@[simp] theorem State.setPart_rounds (p : Nat) (x : Part) : (s.setPart p x).rounds = s.rounds := rfl
@[simp] theorem State.setPart_ingest (p : Nat) (x : Part) : (s.setPart p x).ingest = s.ingest := rfl
@[simp] theorem State.setPart_loom (p : Nat) (x : Part) : (s.setPart p x).loom = s.loom := rfl
@[simp] theorem State.setPart_shc (p : Nat) (x : Part) : (s.setPart p x).shc = s.shc := rfl
@[simp] theorem State.setPart_grus (p : Nat) (x : Part) : (s.setPart p x).grus = s.grus := rfl
@[simp] theorem State.setPart_keysets (p : Nat) (x : Part) : (s.setPart p x).keysets = s.keysets := rfl
@[simp] theorem State.setPart_progs (p : Nat) (x : Part) : (s.setPart p x).progs = s.progs := rfl
@[simp] theorem State.setPart_gruRuns (p : Nat) (x : Part) : (s.setPart p x).gruRuns = s.gruRuns := rfl
@[simp] theorem State.setPart_tierA (p : Nat) (x : Part) : (s.setPart p x).tierA = s.tierA := rfl
@[simp] theorem State.setPart_tierB (p : Nat) (x : Part) : (s.setPart p x).tierB = s.tierB := rfl
@[simp] theorem State.setPart_mem (p : Nat) (x : Part) : (s.setPart p x).mem = s.mem := rfl
@[simp] theorem State.setPart_flc (p : Nat) (x : Part) : (s.setPart p x).flc = s.flc := rfl
@[simp] theorem State.setPart_fab (p : Nat) (x : Part) : (s.setPart p x).fab = s.fab := rfl
@[simp] theorem State.setPart_mrd (p : Nat) (x : Part) : (s.setPart p x).mrd = s.mrd := rfl
@[simp] theorem State.setPart_sec (p : Nat) (x : Part) : (s.setPart p x).sec = s.sec := rfl
@[simp] theorem State.setPart_rng (p : Nat) (x : Part) : (s.setPart p x).rng = s.rng := rfl
@[simp] theorem State.setPart_fw (p : Nat) (x : Part) : (s.setPart p x).fw = s.fw := rfl
@[simp] theorem State.setPart_pwr (p : Nat) (x : Part) : (s.setPart p x).pwr = s.pwr := rfl

@[simp] theorem State.setRound_pending (r : Nat) (x : Round) : (s.setRound r x).pending = s.pending := rfl
@[simp] theorem State.setRound_out (r : Nat) (x : Round) : (s.setRound r x).out = s.out := rfl
@[simp] theorem State.setRound_free (r : Nat) (x : Round) : (s.setRound r x).free = s.free := rfl
@[simp] theorem State.setRound_now (r : Nat) (x : Round) : (s.setRound r x).now = s.now := rfl
@[simp] theorem State.setRound_glb (r : Nat) (x : Round) : (s.setRound r x).glb = s.glb := rfl
@[simp] theorem State.setRound_evSeq (r : Nat) (x : Round) : (s.setRound r x).evSeq = s.evSeq := rfl
@[simp] theorem State.setRound_cntMod (r : Nat) (x : Round) : (s.setRound r x).cntMod = s.cntMod := rfl
@[simp] theorem State.setRound_cntPart (r : Nat) (x : Round) : (s.setRound r x).cntPart = s.cntPart := rfl
@[simp] theorem State.setRound_hif (r : Nat) (x : Round) : (s.setRound r x).hif = s.hif := rfl
@[simp] theorem State.setRound_ops (r : Nat) (x : Round) : (s.setRound r x).ops = s.ops := rfl
@[simp] theorem State.setRound_nextOp (r : Nat) (x : Round) : (s.setRound r x).nextOp = s.nextOp := rfl
@[simp] theorem State.setRound_parts (r : Nat) (x : Round) : (s.setRound r x).parts = s.parts := rfl
@[simp] theorem State.setRound_layout (r : Nat) (x : Round) : (s.setRound r x).layout = s.layout := rfl
@[simp] theorem State.setRound_panels (r : Nat) (x : Round) : (s.setRound r x).panels = s.panels := rfl
@[simp] theorem State.setRound_regions (r : Nat) (x : Round) : (s.setRound r x).regions = s.regions := rfl
@[simp] theorem State.setRound_nextDef (r : Nat) (x : Round) : (s.setRound r x).nextDef = s.nextDef := rfl
@[simp] theorem State.setRound_xfers (r : Nat) (x : Round) : (s.setRound r x).xfers = s.xfers := rfl
@[simp] theorem State.setRound_nextX (r : Nat) (x : Round) : (s.setRound r x).nextX = s.nextX := rfl
@[simp] theorem State.setRound_rounds (r : Nat) (x : Round) : (s.setRound r x).rounds = tset r x s.rounds := rfl
@[simp] theorem State.setRound_ingest (r : Nat) (x : Round) : (s.setRound r x).ingest = s.ingest := rfl
@[simp] theorem State.setRound_loom (r : Nat) (x : Round) : (s.setRound r x).loom = s.loom := rfl
@[simp] theorem State.setRound_shc (r : Nat) (x : Round) : (s.setRound r x).shc = s.shc := rfl
@[simp] theorem State.setRound_grus (r : Nat) (x : Round) : (s.setRound r x).grus = s.grus := rfl
@[simp] theorem State.setRound_keysets (r : Nat) (x : Round) : (s.setRound r x).keysets = s.keysets := rfl
@[simp] theorem State.setRound_progs (r : Nat) (x : Round) : (s.setRound r x).progs = s.progs := rfl
@[simp] theorem State.setRound_gruRuns (r : Nat) (x : Round) : (s.setRound r x).gruRuns = s.gruRuns := rfl
@[simp] theorem State.setRound_tierA (r : Nat) (x : Round) : (s.setRound r x).tierA = s.tierA := rfl
@[simp] theorem State.setRound_tierB (r : Nat) (x : Round) : (s.setRound r x).tierB = s.tierB := rfl
@[simp] theorem State.setRound_mem (r : Nat) (x : Round) : (s.setRound r x).mem = s.mem := rfl
@[simp] theorem State.setRound_flc (r : Nat) (x : Round) : (s.setRound r x).flc = s.flc := rfl
@[simp] theorem State.setRound_fab (r : Nat) (x : Round) : (s.setRound r x).fab = s.fab := rfl
@[simp] theorem State.setRound_mrd (r : Nat) (x : Round) : (s.setRound r x).mrd = s.mrd := rfl
@[simp] theorem State.setRound_sec (r : Nat) (x : Round) : (s.setRound r x).sec = s.sec := rfl
@[simp] theorem State.setRound_rng (r : Nat) (x : Round) : (s.setRound r x).rng = s.rng := rfl
@[simp] theorem State.setRound_fw (r : Nat) (x : Round) : (s.setRound r x).fw = s.fw := rfl
@[simp] theorem State.setRound_pwr (r : Nat) (x : Round) : (s.setRound r x).pwr = s.pwr := rfl

@[simp] theorem State.setSlot_pending (n : Nat) (k : KeySlot) : (s.setSlot n k).pending = s.pending := rfl
@[simp] theorem State.setSlot_out (n : Nat) (k : KeySlot) : (s.setSlot n k).out = s.out := rfl
@[simp] theorem State.setSlot_free (n : Nat) (k : KeySlot) : (s.setSlot n k).free = s.free := rfl
@[simp] theorem State.setSlot_now (n : Nat) (k : KeySlot) : (s.setSlot n k).now = s.now := rfl
@[simp] theorem State.setSlot_glb (n : Nat) (k : KeySlot) : (s.setSlot n k).glb = s.glb := rfl
@[simp] theorem State.setSlot_evSeq (n : Nat) (k : KeySlot) : (s.setSlot n k).evSeq = s.evSeq := rfl
@[simp] theorem State.setSlot_cntMod (n : Nat) (k : KeySlot) : (s.setSlot n k).cntMod = s.cntMod := rfl
@[simp] theorem State.setSlot_cntPart (n : Nat) (k : KeySlot) : (s.setSlot n k).cntPart = s.cntPart := rfl
@[simp] theorem State.setSlot_hif (n : Nat) (k : KeySlot) : (s.setSlot n k).hif = s.hif := rfl
@[simp] theorem State.setSlot_ops (n : Nat) (k : KeySlot) : (s.setSlot n k).ops = s.ops := rfl
@[simp] theorem State.setSlot_nextOp (n : Nat) (k : KeySlot) : (s.setSlot n k).nextOp = s.nextOp := rfl
@[simp] theorem State.setSlot_parts (n : Nat) (k : KeySlot) : (s.setSlot n k).parts = s.parts := rfl
@[simp] theorem State.setSlot_layout (n : Nat) (k : KeySlot) : (s.setSlot n k).layout = s.layout := rfl
@[simp] theorem State.setSlot_panels (n : Nat) (k : KeySlot) : (s.setSlot n k).panels = s.panels := rfl
@[simp] theorem State.setSlot_regions (n : Nat) (k : KeySlot) : (s.setSlot n k).regions = s.regions := rfl
@[simp] theorem State.setSlot_nextDef (n : Nat) (k : KeySlot) : (s.setSlot n k).nextDef = s.nextDef := rfl
@[simp] theorem State.setSlot_xfers (n : Nat) (k : KeySlot) : (s.setSlot n k).xfers = s.xfers := rfl
@[simp] theorem State.setSlot_nextX (n : Nat) (k : KeySlot) : (s.setSlot n k).nextX = s.nextX := rfl
@[simp] theorem State.setSlot_rounds (n : Nat) (k : KeySlot) : (s.setSlot n k).rounds = s.rounds := rfl
@[simp] theorem State.setSlot_ingest (n : Nat) (k : KeySlot) : (s.setSlot n k).ingest = s.ingest := rfl
@[simp] theorem State.setSlot_loom (n : Nat) (k : KeySlot) : (s.setSlot n k).loom = s.loom := rfl
@[simp] theorem State.setSlot_shc (n : Nat) (k : KeySlot) : (s.setSlot n k).shc = s.shc := rfl
@[simp] theorem State.setSlot_grus (n : Nat) (k : KeySlot) : (s.setSlot n k).grus = s.grus := rfl
@[simp] theorem State.setSlot_keysets (n : Nat) (k : KeySlot) : (s.setSlot n k).keysets = s.keysets := rfl
@[simp] theorem State.setSlot_progs (n : Nat) (k : KeySlot) : (s.setSlot n k).progs = s.progs := rfl
@[simp] theorem State.setSlot_gruRuns (n : Nat) (k : KeySlot) : (s.setSlot n k).gruRuns = s.gruRuns := rfl
@[simp] theorem State.setSlot_tierA (n : Nat) (k : KeySlot) : (s.setSlot n k).tierA = s.tierA := rfl
@[simp] theorem State.setSlot_tierB (n : Nat) (k : KeySlot) : (s.setSlot n k).tierB = s.tierB := rfl
@[simp] theorem State.setSlot_mem (n : Nat) (k : KeySlot) : (s.setSlot n k).mem = s.mem := rfl
@[simp] theorem State.setSlot_flc (n : Nat) (k : KeySlot) : (s.setSlot n k).flc = s.flc := rfl
@[simp] theorem State.setSlot_fab (n : Nat) (k : KeySlot) : (s.setSlot n k).fab = s.fab := rfl
@[simp] theorem State.setSlot_mrd (n : Nat) (k : KeySlot) : (s.setSlot n k).mrd = s.mrd := rfl
@[simp] theorem State.setSlot_sec (n : Nat) (k : KeySlot) : (s.setSlot n k).sec = { s.sec with slots := tset n k s.sec.slots } := rfl
@[simp] theorem State.setSlot_rng (n : Nat) (k : KeySlot) : (s.setSlot n k).rng = s.rng := rfl
@[simp] theorem State.setSlot_fw (n : Nat) (k : KeySlot) : (s.setSlot n k).fw = s.fw := rfl
@[simp] theorem State.setSlot_pwr (n : Nat) (k : KeySlot) : (s.setSlot n k).pwr = s.pwr := rfl

@[simp] theorem State.setPanel_pending (n : Nat) (x : Panel) : (s.setPanel n x).pending = s.pending := rfl
@[simp] theorem State.setPanel_out (n : Nat) (x : Panel) : (s.setPanel n x).out = s.out := rfl
@[simp] theorem State.setPanel_free (n : Nat) (x : Panel) : (s.setPanel n x).free = s.free := rfl
@[simp] theorem State.setPanel_now (n : Nat) (x : Panel) : (s.setPanel n x).now = s.now := rfl
@[simp] theorem State.setPanel_glb (n : Nat) (x : Panel) : (s.setPanel n x).glb = s.glb := rfl
@[simp] theorem State.setPanel_evSeq (n : Nat) (x : Panel) : (s.setPanel n x).evSeq = s.evSeq := rfl
@[simp] theorem State.setPanel_cntMod (n : Nat) (x : Panel) : (s.setPanel n x).cntMod = s.cntMod := rfl
@[simp] theorem State.setPanel_cntPart (n : Nat) (x : Panel) : (s.setPanel n x).cntPart = s.cntPart := rfl
@[simp] theorem State.setPanel_hif (n : Nat) (x : Panel) : (s.setPanel n x).hif = s.hif := rfl
@[simp] theorem State.setPanel_ops (n : Nat) (x : Panel) : (s.setPanel n x).ops = s.ops := rfl
@[simp] theorem State.setPanel_nextOp (n : Nat) (x : Panel) : (s.setPanel n x).nextOp = s.nextOp := rfl
@[simp] theorem State.setPanel_parts (n : Nat) (x : Panel) : (s.setPanel n x).parts = s.parts := rfl
@[simp] theorem State.setPanel_layout (n : Nat) (x : Panel) : (s.setPanel n x).layout = s.layout := rfl
@[simp] theorem State.setPanel_panels (n : Nat) (x : Panel) : (s.setPanel n x).panels = tset n x s.panels := rfl
@[simp] theorem State.setPanel_regions (n : Nat) (x : Panel) : (s.setPanel n x).regions = s.regions := rfl
@[simp] theorem State.setPanel_nextDef (n : Nat) (x : Panel) : (s.setPanel n x).nextDef = s.nextDef := rfl
@[simp] theorem State.setPanel_xfers (n : Nat) (x : Panel) : (s.setPanel n x).xfers = s.xfers := rfl
@[simp] theorem State.setPanel_nextX (n : Nat) (x : Panel) : (s.setPanel n x).nextX = s.nextX := rfl
@[simp] theorem State.setPanel_rounds (n : Nat) (x : Panel) : (s.setPanel n x).rounds = s.rounds := rfl
@[simp] theorem State.setPanel_ingest (n : Nat) (x : Panel) : (s.setPanel n x).ingest = s.ingest := rfl
@[simp] theorem State.setPanel_loom (n : Nat) (x : Panel) : (s.setPanel n x).loom = s.loom := rfl
@[simp] theorem State.setPanel_shc (n : Nat) (x : Panel) : (s.setPanel n x).shc = s.shc := rfl
@[simp] theorem State.setPanel_grus (n : Nat) (x : Panel) : (s.setPanel n x).grus = s.grus := rfl
@[simp] theorem State.setPanel_keysets (n : Nat) (x : Panel) : (s.setPanel n x).keysets = s.keysets := rfl
@[simp] theorem State.setPanel_progs (n : Nat) (x : Panel) : (s.setPanel n x).progs = s.progs := rfl
@[simp] theorem State.setPanel_gruRuns (n : Nat) (x : Panel) : (s.setPanel n x).gruRuns = s.gruRuns := rfl
@[simp] theorem State.setPanel_tierA (n : Nat) (x : Panel) : (s.setPanel n x).tierA = s.tierA := rfl
@[simp] theorem State.setPanel_tierB (n : Nat) (x : Panel) : (s.setPanel n x).tierB = s.tierB := rfl
@[simp] theorem State.setPanel_mem (n : Nat) (x : Panel) : (s.setPanel n x).mem = s.mem := rfl
@[simp] theorem State.setPanel_flc (n : Nat) (x : Panel) : (s.setPanel n x).flc = s.flc := rfl
@[simp] theorem State.setPanel_fab (n : Nat) (x : Panel) : (s.setPanel n x).fab = s.fab := rfl
@[simp] theorem State.setPanel_mrd (n : Nat) (x : Panel) : (s.setPanel n x).mrd = s.mrd := rfl
@[simp] theorem State.setPanel_sec (n : Nat) (x : Panel) : (s.setPanel n x).sec = s.sec := rfl
@[simp] theorem State.setPanel_rng (n : Nat) (x : Panel) : (s.setPanel n x).rng = s.rng := rfl
@[simp] theorem State.setPanel_fw (n : Nat) (x : Panel) : (s.setPanel n x).fw = s.fw := rfl
@[simp] theorem State.setPanel_pwr (n : Nat) (x : Panel) : (s.setPanel n x).pwr = s.pwr := rfl

@[simp] theorem State.setFlc_pending (f : Flash) : (s.setFlc f).pending = s.pending := rfl
@[simp] theorem State.setFlc_out (f : Flash) : (s.setFlc f).out = s.out := rfl
@[simp] theorem State.setFlc_free (f : Flash) : (s.setFlc f).free = s.free := rfl
@[simp] theorem State.setFlc_now (f : Flash) : (s.setFlc f).now = s.now := rfl
@[simp] theorem State.setFlc_glb (f : Flash) : (s.setFlc f).glb = s.glb := rfl
@[simp] theorem State.setFlc_evSeq (f : Flash) : (s.setFlc f).evSeq = s.evSeq := rfl
@[simp] theorem State.setFlc_cntMod (f : Flash) : (s.setFlc f).cntMod = s.cntMod := rfl
@[simp] theorem State.setFlc_cntPart (f : Flash) : (s.setFlc f).cntPart = s.cntPart := rfl
@[simp] theorem State.setFlc_hif (f : Flash) : (s.setFlc f).hif = s.hif := rfl
@[simp] theorem State.setFlc_ops (f : Flash) : (s.setFlc f).ops = s.ops := rfl
@[simp] theorem State.setFlc_nextOp (f : Flash) : (s.setFlc f).nextOp = s.nextOp := rfl
@[simp] theorem State.setFlc_parts (f : Flash) : (s.setFlc f).parts = s.parts := rfl
@[simp] theorem State.setFlc_layout (f : Flash) : (s.setFlc f).layout = s.layout := rfl
@[simp] theorem State.setFlc_panels (f : Flash) : (s.setFlc f).panels = s.panels := rfl
@[simp] theorem State.setFlc_regions (f : Flash) : (s.setFlc f).regions = s.regions := rfl
@[simp] theorem State.setFlc_nextDef (f : Flash) : (s.setFlc f).nextDef = s.nextDef := rfl
@[simp] theorem State.setFlc_xfers (f : Flash) : (s.setFlc f).xfers = s.xfers := rfl
@[simp] theorem State.setFlc_nextX (f : Flash) : (s.setFlc f).nextX = s.nextX := rfl
@[simp] theorem State.setFlc_rounds (f : Flash) : (s.setFlc f).rounds = s.rounds := rfl
@[simp] theorem State.setFlc_ingest (f : Flash) : (s.setFlc f).ingest = s.ingest := rfl
@[simp] theorem State.setFlc_loom (f : Flash) : (s.setFlc f).loom = s.loom := rfl
@[simp] theorem State.setFlc_shc (f : Flash) : (s.setFlc f).shc = s.shc := rfl
@[simp] theorem State.setFlc_grus (f : Flash) : (s.setFlc f).grus = s.grus := rfl
@[simp] theorem State.setFlc_keysets (f : Flash) : (s.setFlc f).keysets = s.keysets := rfl
@[simp] theorem State.setFlc_progs (f : Flash) : (s.setFlc f).progs = s.progs := rfl
@[simp] theorem State.setFlc_gruRuns (f : Flash) : (s.setFlc f).gruRuns = s.gruRuns := rfl
@[simp] theorem State.setFlc_tierA (f : Flash) : (s.setFlc f).tierA = s.tierA := rfl
@[simp] theorem State.setFlc_tierB (f : Flash) : (s.setFlc f).tierB = s.tierB := rfl
@[simp] theorem State.setFlc_mem (f : Flash) : (s.setFlc f).mem = s.mem := rfl
@[simp] theorem State.setFlc_flc (f : Flash) : (s.setFlc f).flc = f := rfl
@[simp] theorem State.setFlc_fab (f : Flash) : (s.setFlc f).fab = s.fab := rfl
@[simp] theorem State.setFlc_mrd (f : Flash) : (s.setFlc f).mrd = s.mrd := rfl
@[simp] theorem State.setFlc_sec (f : Flash) : (s.setFlc f).sec = s.sec := rfl
@[simp] theorem State.setFlc_rng (f : Flash) : (s.setFlc f).rng = s.rng := rfl
@[simp] theorem State.setFlc_fw (f : Flash) : (s.setFlc f).fw = s.fw := rfl
@[simp] theorem State.setFlc_pwr (f : Flash) : (s.setFlc f).pwr = s.pwr := rfl

@[simp] theorem State.setMark_pending (i : Nat) (m : Mark) : (s.setMark i m).pending = s.pending := rfl
@[simp] theorem State.setMark_out (i : Nat) (m : Mark) : (s.setMark i m).out = s.out := rfl
@[simp] theorem State.setMark_free (i : Nat) (m : Mark) : (s.setMark i m).free = s.free := rfl
@[simp] theorem State.setMark_now (i : Nat) (m : Mark) : (s.setMark i m).now = s.now := rfl
@[simp] theorem State.setMark_glb (i : Nat) (m : Mark) : (s.setMark i m).glb = s.glb := rfl
@[simp] theorem State.setMark_evSeq (i : Nat) (m : Mark) : (s.setMark i m).evSeq = s.evSeq := rfl
@[simp] theorem State.setMark_cntMod (i : Nat) (m : Mark) : (s.setMark i m).cntMod = s.cntMod := rfl
@[simp] theorem State.setMark_cntPart (i : Nat) (m : Mark) : (s.setMark i m).cntPart = s.cntPart := rfl
@[simp] theorem State.setMark_hif (i : Nat) (m : Mark) : (s.setMark i m).hif = s.hif := rfl
@[simp] theorem State.setMark_ops (i : Nat) (m : Mark) : (s.setMark i m).ops = s.ops := rfl
@[simp] theorem State.setMark_nextOp (i : Nat) (m : Mark) : (s.setMark i m).nextOp = s.nextOp := rfl
@[simp] theorem State.setMark_parts (i : Nat) (m : Mark) : (s.setMark i m).parts = s.parts := rfl
@[simp] theorem State.setMark_layout (i : Nat) (m : Mark) : (s.setMark i m).layout = s.layout := rfl
@[simp] theorem State.setMark_panels (i : Nat) (m : Mark) : (s.setMark i m).panels = s.panels := rfl
@[simp] theorem State.setMark_regions (i : Nat) (m : Mark) : (s.setMark i m).regions = s.regions := rfl
@[simp] theorem State.setMark_nextDef (i : Nat) (m : Mark) : (s.setMark i m).nextDef = s.nextDef := rfl
@[simp] theorem State.setMark_xfers (i : Nat) (m : Mark) : (s.setMark i m).xfers = s.xfers := rfl
@[simp] theorem State.setMark_nextX (i : Nat) (m : Mark) : (s.setMark i m).nextX = s.nextX := rfl
@[simp] theorem State.setMark_rounds (i : Nat) (m : Mark) : (s.setMark i m).rounds = s.rounds := rfl
@[simp] theorem State.setMark_ingest (i : Nat) (m : Mark) : (s.setMark i m).ingest = s.ingest := rfl
@[simp] theorem State.setMark_loom (i : Nat) (m : Mark) : (s.setMark i m).loom = s.loom := rfl
@[simp] theorem State.setMark_shc (i : Nat) (m : Mark) : (s.setMark i m).shc = s.shc := rfl
@[simp] theorem State.setMark_grus (i : Nat) (m : Mark) : (s.setMark i m).grus = s.grus := rfl
@[simp] theorem State.setMark_keysets (i : Nat) (m : Mark) : (s.setMark i m).keysets = s.keysets := rfl
@[simp] theorem State.setMark_progs (i : Nat) (m : Mark) : (s.setMark i m).progs = s.progs := rfl
@[simp] theorem State.setMark_gruRuns (i : Nat) (m : Mark) : (s.setMark i m).gruRuns = s.gruRuns := rfl
@[simp] theorem State.setMark_tierA (i : Nat) (m : Mark) : (s.setMark i m).tierA = s.tierA := rfl
@[simp] theorem State.setMark_tierB (i : Nat) (m : Mark) : (s.setMark i m).tierB = s.tierB := rfl
@[simp] theorem State.setMark_mem (i : Nat) (m : Mark) : (s.setMark i m).mem = s.mem := rfl
@[simp] theorem State.setMark_flc (i : Nat) (m : Mark) : (s.setMark i m).flc = s.flc := rfl
@[simp] theorem State.setMark_fab (i : Nat) (m : Mark) : (s.setMark i m).fab = s.fab := rfl
@[simp] theorem State.setMark_mrd (i : Nat) (m : Mark) : (s.setMark i m).mrd = { s.mrd with marks := tset i m s.mrd.marks } := rfl
@[simp] theorem State.setMark_sec (i : Nat) (m : Mark) : (s.setMark i m).sec = s.sec := rfl
@[simp] theorem State.setMark_rng (i : Nat) (m : Mark) : (s.setMark i m).rng = s.rng := rfl
@[simp] theorem State.setMark_fw (i : Nat) (m : Mark) : (s.setMark i m).fw = s.fw := rfl
@[simp] theorem State.setMark_pwr (i : Nat) (m : Mark) : (s.setMark i m).pwr = s.pwr := rfl

@[simp] theorem State.delMark_pending (i : Nat) : (s.delMark i).pending = s.pending := rfl
@[simp] theorem State.delMark_out (i : Nat) : (s.delMark i).out = s.out := rfl
@[simp] theorem State.delMark_free (i : Nat) : (s.delMark i).free = s.free := rfl
@[simp] theorem State.delMark_now (i : Nat) : (s.delMark i).now = s.now := rfl
@[simp] theorem State.delMark_glb (i : Nat) : (s.delMark i).glb = s.glb := rfl
@[simp] theorem State.delMark_evSeq (i : Nat) : (s.delMark i).evSeq = s.evSeq := rfl
@[simp] theorem State.delMark_cntMod (i : Nat) : (s.delMark i).cntMod = s.cntMod := rfl
@[simp] theorem State.delMark_cntPart (i : Nat) : (s.delMark i).cntPart = s.cntPart := rfl
@[simp] theorem State.delMark_hif (i : Nat) : (s.delMark i).hif = s.hif := rfl
@[simp] theorem State.delMark_ops (i : Nat) : (s.delMark i).ops = s.ops := rfl
@[simp] theorem State.delMark_nextOp (i : Nat) : (s.delMark i).nextOp = s.nextOp := rfl
@[simp] theorem State.delMark_parts (i : Nat) : (s.delMark i).parts = s.parts := rfl
@[simp] theorem State.delMark_layout (i : Nat) : (s.delMark i).layout = s.layout := rfl
@[simp] theorem State.delMark_panels (i : Nat) : (s.delMark i).panels = s.panels := rfl
@[simp] theorem State.delMark_regions (i : Nat) : (s.delMark i).regions = s.regions := rfl
@[simp] theorem State.delMark_nextDef (i : Nat) : (s.delMark i).nextDef = s.nextDef := rfl
@[simp] theorem State.delMark_xfers (i : Nat) : (s.delMark i).xfers = s.xfers := rfl
@[simp] theorem State.delMark_nextX (i : Nat) : (s.delMark i).nextX = s.nextX := rfl
@[simp] theorem State.delMark_rounds (i : Nat) : (s.delMark i).rounds = s.rounds := rfl
@[simp] theorem State.delMark_ingest (i : Nat) : (s.delMark i).ingest = s.ingest := rfl
@[simp] theorem State.delMark_loom (i : Nat) : (s.delMark i).loom = s.loom := rfl
@[simp] theorem State.delMark_shc (i : Nat) : (s.delMark i).shc = s.shc := rfl
@[simp] theorem State.delMark_grus (i : Nat) : (s.delMark i).grus = s.grus := rfl
@[simp] theorem State.delMark_keysets (i : Nat) : (s.delMark i).keysets = s.keysets := rfl
@[simp] theorem State.delMark_progs (i : Nat) : (s.delMark i).progs = s.progs := rfl
@[simp] theorem State.delMark_gruRuns (i : Nat) : (s.delMark i).gruRuns = s.gruRuns := rfl
@[simp] theorem State.delMark_tierA (i : Nat) : (s.delMark i).tierA = s.tierA := rfl
@[simp] theorem State.delMark_tierB (i : Nat) : (s.delMark i).tierB = s.tierB := rfl
@[simp] theorem State.delMark_mem (i : Nat) : (s.delMark i).mem = s.mem := rfl
@[simp] theorem State.delMark_flc (i : Nat) : (s.delMark i).flc = s.flc := rfl
@[simp] theorem State.delMark_fab (i : Nat) : (s.delMark i).fab = s.fab := rfl
@[simp] theorem State.delMark_mrd (i : Nat) : (s.delMark i).mrd = { s.mrd with marks := tdel i s.mrd.marks } := rfl
@[simp] theorem State.delMark_sec (i : Nat) : (s.delMark i).sec = s.sec := rfl
@[simp] theorem State.delMark_rng (i : Nat) : (s.delMark i).rng = s.rng := rfl
@[simp] theorem State.delMark_fw (i : Nat) : (s.delMark i).fw = s.fw := rfl
@[simp] theorem State.delMark_pwr (i : Nat) : (s.delMark i).pwr = s.pwr := rfl

@[simp] theorem State.setMrd_pending (m : Mrd) : (s.setMrd m).pending = s.pending := rfl
@[simp] theorem State.setMrd_out (m : Mrd) : (s.setMrd m).out = s.out := rfl
@[simp] theorem State.setMrd_free (m : Mrd) : (s.setMrd m).free = s.free := rfl
@[simp] theorem State.setMrd_now (m : Mrd) : (s.setMrd m).now = s.now := rfl
@[simp] theorem State.setMrd_glb (m : Mrd) : (s.setMrd m).glb = s.glb := rfl
@[simp] theorem State.setMrd_evSeq (m : Mrd) : (s.setMrd m).evSeq = s.evSeq := rfl
@[simp] theorem State.setMrd_cntMod (m : Mrd) : (s.setMrd m).cntMod = s.cntMod := rfl
@[simp] theorem State.setMrd_cntPart (m : Mrd) : (s.setMrd m).cntPart = s.cntPart := rfl
@[simp] theorem State.setMrd_hif (m : Mrd) : (s.setMrd m).hif = s.hif := rfl
@[simp] theorem State.setMrd_ops (m : Mrd) : (s.setMrd m).ops = s.ops := rfl
@[simp] theorem State.setMrd_nextOp (m : Mrd) : (s.setMrd m).nextOp = s.nextOp := rfl
@[simp] theorem State.setMrd_parts (m : Mrd) : (s.setMrd m).parts = s.parts := rfl
@[simp] theorem State.setMrd_layout (m : Mrd) : (s.setMrd m).layout = s.layout := rfl
@[simp] theorem State.setMrd_panels (m : Mrd) : (s.setMrd m).panels = s.panels := rfl
@[simp] theorem State.setMrd_regions (m : Mrd) : (s.setMrd m).regions = s.regions := rfl
@[simp] theorem State.setMrd_nextDef (m : Mrd) : (s.setMrd m).nextDef = s.nextDef := rfl
@[simp] theorem State.setMrd_xfers (m : Mrd) : (s.setMrd m).xfers = s.xfers := rfl
@[simp] theorem State.setMrd_nextX (m : Mrd) : (s.setMrd m).nextX = s.nextX := rfl
@[simp] theorem State.setMrd_rounds (m : Mrd) : (s.setMrd m).rounds = s.rounds := rfl
@[simp] theorem State.setMrd_ingest (m : Mrd) : (s.setMrd m).ingest = s.ingest := rfl
@[simp] theorem State.setMrd_loom (m : Mrd) : (s.setMrd m).loom = s.loom := rfl
@[simp] theorem State.setMrd_shc (m : Mrd) : (s.setMrd m).shc = s.shc := rfl
@[simp] theorem State.setMrd_grus (m : Mrd) : (s.setMrd m).grus = s.grus := rfl
@[simp] theorem State.setMrd_keysets (m : Mrd) : (s.setMrd m).keysets = s.keysets := rfl
@[simp] theorem State.setMrd_progs (m : Mrd) : (s.setMrd m).progs = s.progs := rfl
@[simp] theorem State.setMrd_gruRuns (m : Mrd) : (s.setMrd m).gruRuns = s.gruRuns := rfl
@[simp] theorem State.setMrd_tierA (m : Mrd) : (s.setMrd m).tierA = s.tierA := rfl
@[simp] theorem State.setMrd_tierB (m : Mrd) : (s.setMrd m).tierB = s.tierB := rfl
@[simp] theorem State.setMrd_mem (m : Mrd) : (s.setMrd m).mem = s.mem := rfl
@[simp] theorem State.setMrd_flc (m : Mrd) : (s.setMrd m).flc = s.flc := rfl
@[simp] theorem State.setMrd_fab (m : Mrd) : (s.setMrd m).fab = s.fab := rfl
@[simp] theorem State.setMrd_mrd (m : Mrd) : (s.setMrd m).mrd = m := rfl
@[simp] theorem State.setMrd_sec (m : Mrd) : (s.setMrd m).sec = s.sec := rfl
@[simp] theorem State.setMrd_rng (m : Mrd) : (s.setMrd m).rng = s.rng := rfl
@[simp] theorem State.setMrd_fw (m : Mrd) : (s.setMrd m).fw = s.fw := rfl
@[simp] theorem State.setMrd_pwr (m : Mrd) : (s.setMrd m).pwr = s.pwr := rfl

@[simp] theorem State.setSec_pending (x : Sec) : (s.setSec x).pending = s.pending := rfl
@[simp] theorem State.setSec_out (x : Sec) : (s.setSec x).out = s.out := rfl
@[simp] theorem State.setSec_free (x : Sec) : (s.setSec x).free = s.free := rfl
@[simp] theorem State.setSec_now (x : Sec) : (s.setSec x).now = s.now := rfl
@[simp] theorem State.setSec_glb (x : Sec) : (s.setSec x).glb = s.glb := rfl
@[simp] theorem State.setSec_evSeq (x : Sec) : (s.setSec x).evSeq = s.evSeq := rfl
@[simp] theorem State.setSec_cntMod (x : Sec) : (s.setSec x).cntMod = s.cntMod := rfl
@[simp] theorem State.setSec_cntPart (x : Sec) : (s.setSec x).cntPart = s.cntPart := rfl
@[simp] theorem State.setSec_hif (x : Sec) : (s.setSec x).hif = s.hif := rfl
@[simp] theorem State.setSec_ops (x : Sec) : (s.setSec x).ops = s.ops := rfl
@[simp] theorem State.setSec_nextOp (x : Sec) : (s.setSec x).nextOp = s.nextOp := rfl
@[simp] theorem State.setSec_parts (x : Sec) : (s.setSec x).parts = s.parts := rfl
@[simp] theorem State.setSec_layout (x : Sec) : (s.setSec x).layout = s.layout := rfl
@[simp] theorem State.setSec_panels (x : Sec) : (s.setSec x).panels = s.panels := rfl
@[simp] theorem State.setSec_regions (x : Sec) : (s.setSec x).regions = s.regions := rfl
@[simp] theorem State.setSec_nextDef (x : Sec) : (s.setSec x).nextDef = s.nextDef := rfl
@[simp] theorem State.setSec_xfers (x : Sec) : (s.setSec x).xfers = s.xfers := rfl
@[simp] theorem State.setSec_nextX (x : Sec) : (s.setSec x).nextX = s.nextX := rfl
@[simp] theorem State.setSec_rounds (x : Sec) : (s.setSec x).rounds = s.rounds := rfl
@[simp] theorem State.setSec_ingest (x : Sec) : (s.setSec x).ingest = s.ingest := rfl
@[simp] theorem State.setSec_loom (x : Sec) : (s.setSec x).loom = s.loom := rfl
@[simp] theorem State.setSec_shc (x : Sec) : (s.setSec x).shc = s.shc := rfl
@[simp] theorem State.setSec_grus (x : Sec) : (s.setSec x).grus = s.grus := rfl
@[simp] theorem State.setSec_keysets (x : Sec) : (s.setSec x).keysets = s.keysets := rfl
@[simp] theorem State.setSec_progs (x : Sec) : (s.setSec x).progs = s.progs := rfl
@[simp] theorem State.setSec_gruRuns (x : Sec) : (s.setSec x).gruRuns = s.gruRuns := rfl
@[simp] theorem State.setSec_tierA (x : Sec) : (s.setSec x).tierA = s.tierA := rfl
@[simp] theorem State.setSec_tierB (x : Sec) : (s.setSec x).tierB = s.tierB := rfl
@[simp] theorem State.setSec_mem (x : Sec) : (s.setSec x).mem = s.mem := rfl
@[simp] theorem State.setSec_flc (x : Sec) : (s.setSec x).flc = s.flc := rfl
@[simp] theorem State.setSec_fab (x : Sec) : (s.setSec x).fab = s.fab := rfl
@[simp] theorem State.setSec_mrd (x : Sec) : (s.setSec x).mrd = s.mrd := rfl
@[simp] theorem State.setSec_sec (x : Sec) : (s.setSec x).sec = x := rfl
@[simp] theorem State.setSec_rng (x : Sec) : (s.setSec x).rng = s.rng := rfl
@[simp] theorem State.setSec_fw (x : Sec) : (s.setSec x).fw = s.fw := rfl
@[simp] theorem State.setSec_pwr (x : Sec) : (s.setSec x).pwr = s.pwr := rfl

@[simp] theorem State.setRng_pending (x : Rng) : (s.setRng x).pending = s.pending := rfl
@[simp] theorem State.setRng_out (x : Rng) : (s.setRng x).out = s.out := rfl
@[simp] theorem State.setRng_free (x : Rng) : (s.setRng x).free = s.free := rfl
@[simp] theorem State.setRng_now (x : Rng) : (s.setRng x).now = s.now := rfl
@[simp] theorem State.setRng_glb (x : Rng) : (s.setRng x).glb = s.glb := rfl
@[simp] theorem State.setRng_evSeq (x : Rng) : (s.setRng x).evSeq = s.evSeq := rfl
@[simp] theorem State.setRng_cntMod (x : Rng) : (s.setRng x).cntMod = s.cntMod := rfl
@[simp] theorem State.setRng_cntPart (x : Rng) : (s.setRng x).cntPart = s.cntPart := rfl
@[simp] theorem State.setRng_hif (x : Rng) : (s.setRng x).hif = s.hif := rfl
@[simp] theorem State.setRng_ops (x : Rng) : (s.setRng x).ops = s.ops := rfl
@[simp] theorem State.setRng_nextOp (x : Rng) : (s.setRng x).nextOp = s.nextOp := rfl
@[simp] theorem State.setRng_parts (x : Rng) : (s.setRng x).parts = s.parts := rfl
@[simp] theorem State.setRng_layout (x : Rng) : (s.setRng x).layout = s.layout := rfl
@[simp] theorem State.setRng_panels (x : Rng) : (s.setRng x).panels = s.panels := rfl
@[simp] theorem State.setRng_regions (x : Rng) : (s.setRng x).regions = s.regions := rfl
@[simp] theorem State.setRng_nextDef (x : Rng) : (s.setRng x).nextDef = s.nextDef := rfl
@[simp] theorem State.setRng_xfers (x : Rng) : (s.setRng x).xfers = s.xfers := rfl
@[simp] theorem State.setRng_nextX (x : Rng) : (s.setRng x).nextX = s.nextX := rfl
@[simp] theorem State.setRng_rounds (x : Rng) : (s.setRng x).rounds = s.rounds := rfl
@[simp] theorem State.setRng_ingest (x : Rng) : (s.setRng x).ingest = s.ingest := rfl
@[simp] theorem State.setRng_loom (x : Rng) : (s.setRng x).loom = s.loom := rfl
@[simp] theorem State.setRng_shc (x : Rng) : (s.setRng x).shc = s.shc := rfl
@[simp] theorem State.setRng_grus (x : Rng) : (s.setRng x).grus = s.grus := rfl
@[simp] theorem State.setRng_keysets (x : Rng) : (s.setRng x).keysets = s.keysets := rfl
@[simp] theorem State.setRng_progs (x : Rng) : (s.setRng x).progs = s.progs := rfl
@[simp] theorem State.setRng_gruRuns (x : Rng) : (s.setRng x).gruRuns = s.gruRuns := rfl
@[simp] theorem State.setRng_tierA (x : Rng) : (s.setRng x).tierA = s.tierA := rfl
@[simp] theorem State.setRng_tierB (x : Rng) : (s.setRng x).tierB = s.tierB := rfl
@[simp] theorem State.setRng_mem (x : Rng) : (s.setRng x).mem = s.mem := rfl
@[simp] theorem State.setRng_flc (x : Rng) : (s.setRng x).flc = s.flc := rfl
@[simp] theorem State.setRng_fab (x : Rng) : (s.setRng x).fab = s.fab := rfl
@[simp] theorem State.setRng_mrd (x : Rng) : (s.setRng x).mrd = s.mrd := rfl
@[simp] theorem State.setRng_sec (x : Rng) : (s.setRng x).sec = s.sec := rfl
@[simp] theorem State.setRng_rng (x : Rng) : (s.setRng x).rng = x := rfl
@[simp] theorem State.setRng_fw (x : Rng) : (s.setRng x).fw = s.fw := rfl
@[simp] theorem State.setRng_pwr (x : Rng) : (s.setRng x).pwr = s.pwr := rfl

@[simp] theorem State.setPwr_pending (x : Pwr) : (s.setPwr x).pending = s.pending := rfl
@[simp] theorem State.setPwr_out (x : Pwr) : (s.setPwr x).out = s.out := rfl
@[simp] theorem State.setPwr_free (x : Pwr) : (s.setPwr x).free = s.free := rfl
@[simp] theorem State.setPwr_now (x : Pwr) : (s.setPwr x).now = s.now := rfl
@[simp] theorem State.setPwr_glb (x : Pwr) : (s.setPwr x).glb = s.glb := rfl
@[simp] theorem State.setPwr_evSeq (x : Pwr) : (s.setPwr x).evSeq = s.evSeq := rfl
@[simp] theorem State.setPwr_cntMod (x : Pwr) : (s.setPwr x).cntMod = s.cntMod := rfl
@[simp] theorem State.setPwr_cntPart (x : Pwr) : (s.setPwr x).cntPart = s.cntPart := rfl
@[simp] theorem State.setPwr_hif (x : Pwr) : (s.setPwr x).hif = s.hif := rfl
@[simp] theorem State.setPwr_ops (x : Pwr) : (s.setPwr x).ops = s.ops := rfl
@[simp] theorem State.setPwr_nextOp (x : Pwr) : (s.setPwr x).nextOp = s.nextOp := rfl
@[simp] theorem State.setPwr_parts (x : Pwr) : (s.setPwr x).parts = s.parts := rfl
@[simp] theorem State.setPwr_layout (x : Pwr) : (s.setPwr x).layout = s.layout := rfl
@[simp] theorem State.setPwr_panels (x : Pwr) : (s.setPwr x).panels = s.panels := rfl
@[simp] theorem State.setPwr_regions (x : Pwr) : (s.setPwr x).regions = s.regions := rfl
@[simp] theorem State.setPwr_nextDef (x : Pwr) : (s.setPwr x).nextDef = s.nextDef := rfl
@[simp] theorem State.setPwr_xfers (x : Pwr) : (s.setPwr x).xfers = s.xfers := rfl
@[simp] theorem State.setPwr_nextX (x : Pwr) : (s.setPwr x).nextX = s.nextX := rfl
@[simp] theorem State.setPwr_rounds (x : Pwr) : (s.setPwr x).rounds = s.rounds := rfl
@[simp] theorem State.setPwr_ingest (x : Pwr) : (s.setPwr x).ingest = s.ingest := rfl
@[simp] theorem State.setPwr_loom (x : Pwr) : (s.setPwr x).loom = s.loom := rfl
@[simp] theorem State.setPwr_shc (x : Pwr) : (s.setPwr x).shc = s.shc := rfl
@[simp] theorem State.setPwr_grus (x : Pwr) : (s.setPwr x).grus = s.grus := rfl
@[simp] theorem State.setPwr_keysets (x : Pwr) : (s.setPwr x).keysets = s.keysets := rfl
@[simp] theorem State.setPwr_progs (x : Pwr) : (s.setPwr x).progs = s.progs := rfl
@[simp] theorem State.setPwr_gruRuns (x : Pwr) : (s.setPwr x).gruRuns = s.gruRuns := rfl
@[simp] theorem State.setPwr_tierA (x : Pwr) : (s.setPwr x).tierA = s.tierA := rfl
@[simp] theorem State.setPwr_tierB (x : Pwr) : (s.setPwr x).tierB = s.tierB := rfl
@[simp] theorem State.setPwr_mem (x : Pwr) : (s.setPwr x).mem = s.mem := rfl
@[simp] theorem State.setPwr_flc (x : Pwr) : (s.setPwr x).flc = s.flc := rfl
@[simp] theorem State.setPwr_fab (x : Pwr) : (s.setPwr x).fab = s.fab := rfl
@[simp] theorem State.setPwr_mrd (x : Pwr) : (s.setPwr x).mrd = s.mrd := rfl
@[simp] theorem State.setPwr_sec (x : Pwr) : (s.setPwr x).sec = s.sec := rfl
@[simp] theorem State.setPwr_rng (x : Pwr) : (s.setPwr x).rng = s.rng := rfl
@[simp] theorem State.setPwr_fw (x : Pwr) : (s.setPwr x).fw = s.fw := rfl
@[simp] theorem State.setPwr_pwr (x : Pwr) : (s.setPwr x).pwr = x := rfl

@[simp] theorem State.atLeast_pending (t : Nat) : (s.atLeast t).pending = s.pending := rfl
@[simp] theorem State.atLeast_out (t : Nat) : (s.atLeast t).out = s.out := rfl
@[simp] theorem State.atLeast_free (t : Nat) : (s.atLeast t).free = s.free := rfl
@[simp] theorem State.atLeast_now (t : Nat) : (s.atLeast t).now = max s.now (s.beforeMark t) := rfl
@[simp] theorem State.atLeast_glb (t : Nat) : (s.atLeast t).glb = s.glb := rfl
@[simp] theorem State.atLeast_evSeq (t : Nat) : (s.atLeast t).evSeq = s.evSeq := rfl
@[simp] theorem State.atLeast_cntMod (t : Nat) : (s.atLeast t).cntMod = s.cntMod := rfl
@[simp] theorem State.atLeast_cntPart (t : Nat) : (s.atLeast t).cntPart = s.cntPart := rfl
@[simp] theorem State.atLeast_hif (t : Nat) : (s.atLeast t).hif = s.hif := rfl
@[simp] theorem State.atLeast_ops (t : Nat) : (s.atLeast t).ops = s.ops := rfl
@[simp] theorem State.atLeast_nextOp (t : Nat) : (s.atLeast t).nextOp = s.nextOp := rfl
@[simp] theorem State.atLeast_parts (t : Nat) : (s.atLeast t).parts = s.parts := rfl
@[simp] theorem State.atLeast_layout (t : Nat) : (s.atLeast t).layout = s.layout := rfl
@[simp] theorem State.atLeast_panels (t : Nat) : (s.atLeast t).panels = s.panels := rfl
@[simp] theorem State.atLeast_regions (t : Nat) : (s.atLeast t).regions = s.regions := rfl
@[simp] theorem State.atLeast_nextDef (t : Nat) : (s.atLeast t).nextDef = s.nextDef := rfl
@[simp] theorem State.atLeast_xfers (t : Nat) : (s.atLeast t).xfers = s.xfers := rfl
@[simp] theorem State.atLeast_nextX (t : Nat) : (s.atLeast t).nextX = s.nextX := rfl
@[simp] theorem State.atLeast_rounds (t : Nat) : (s.atLeast t).rounds = s.rounds := rfl
@[simp] theorem State.atLeast_ingest (t : Nat) : (s.atLeast t).ingest = s.ingest := rfl
@[simp] theorem State.atLeast_loom (t : Nat) : (s.atLeast t).loom = s.loom := rfl
@[simp] theorem State.atLeast_shc (t : Nat) : (s.atLeast t).shc = s.shc := rfl
@[simp] theorem State.atLeast_grus (t : Nat) : (s.atLeast t).grus = s.grus := rfl
@[simp] theorem State.atLeast_keysets (t : Nat) : (s.atLeast t).keysets = s.keysets := rfl
@[simp] theorem State.atLeast_progs (t : Nat) : (s.atLeast t).progs = s.progs := rfl
@[simp] theorem State.atLeast_gruRuns (t : Nat) : (s.atLeast t).gruRuns = s.gruRuns := rfl
@[simp] theorem State.atLeast_tierA (t : Nat) : (s.atLeast t).tierA = s.tierA := rfl
@[simp] theorem State.atLeast_tierB (t : Nat) : (s.atLeast t).tierB = s.tierB := rfl
@[simp] theorem State.atLeast_mem (t : Nat) : (s.atLeast t).mem = s.mem := rfl
@[simp] theorem State.atLeast_flc (t : Nat) : (s.atLeast t).flc = s.flc := rfl
@[simp] theorem State.atLeast_fab (t : Nat) : (s.atLeast t).fab = s.fab := rfl
@[simp] theorem State.atLeast_mrd (t : Nat) : (s.atLeast t).mrd = s.mrd := rfl
@[simp] theorem State.atLeast_sec (t : Nat) : (s.atLeast t).sec = s.sec := rfl
@[simp] theorem State.atLeast_rng (t : Nat) : (s.atLeast t).rng = s.rng := rfl
@[simp] theorem State.atLeast_fw (t : Nat) : (s.atLeast t).fw = s.fw := rfl
@[simp] theorem State.atLeast_pwr (t : Nat) : (s.atLeast t).pwr = s.pwr := rfl

@[simp] theorem State.setFab_pending (x : Fab) : (s.setFab x).pending = s.pending := rfl
@[simp] theorem State.setFab_out (x : Fab) : (s.setFab x).out = s.out := rfl
@[simp] theorem State.setFab_free (x : Fab) : (s.setFab x).free = s.free := rfl
@[simp] theorem State.setFab_now (x : Fab) : (s.setFab x).now = s.now := rfl
@[simp] theorem State.setFab_glb (x : Fab) : (s.setFab x).glb = s.glb := rfl
@[simp] theorem State.setFab_evSeq (x : Fab) : (s.setFab x).evSeq = s.evSeq := rfl
@[simp] theorem State.setFab_cntMod (x : Fab) : (s.setFab x).cntMod = s.cntMod := rfl
@[simp] theorem State.setFab_cntPart (x : Fab) : (s.setFab x).cntPart = s.cntPart := rfl
@[simp] theorem State.setFab_hif (x : Fab) : (s.setFab x).hif = s.hif := rfl
@[simp] theorem State.setFab_ops (x : Fab) : (s.setFab x).ops = s.ops := rfl
@[simp] theorem State.setFab_nextOp (x : Fab) : (s.setFab x).nextOp = s.nextOp := rfl
@[simp] theorem State.setFab_parts (x : Fab) : (s.setFab x).parts = s.parts := rfl
@[simp] theorem State.setFab_layout (x : Fab) : (s.setFab x).layout = s.layout := rfl
@[simp] theorem State.setFab_panels (x : Fab) : (s.setFab x).panels = s.panels := rfl
@[simp] theorem State.setFab_regions (x : Fab) : (s.setFab x).regions = s.regions := rfl
@[simp] theorem State.setFab_nextDef (x : Fab) : (s.setFab x).nextDef = s.nextDef := rfl
@[simp] theorem State.setFab_xfers (x : Fab) : (s.setFab x).xfers = s.xfers := rfl
@[simp] theorem State.setFab_nextX (x : Fab) : (s.setFab x).nextX = s.nextX := rfl
@[simp] theorem State.setFab_rounds (x : Fab) : (s.setFab x).rounds = s.rounds := rfl
@[simp] theorem State.setFab_ingest (x : Fab) : (s.setFab x).ingest = s.ingest := rfl
@[simp] theorem State.setFab_loom (x : Fab) : (s.setFab x).loom = s.loom := rfl
@[simp] theorem State.setFab_shc (x : Fab) : (s.setFab x).shc = s.shc := rfl
@[simp] theorem State.setFab_grus (x : Fab) : (s.setFab x).grus = s.grus := rfl
@[simp] theorem State.setFab_keysets (x : Fab) : (s.setFab x).keysets = s.keysets := rfl
@[simp] theorem State.setFab_progs (x : Fab) : (s.setFab x).progs = s.progs := rfl
@[simp] theorem State.setFab_gruRuns (x : Fab) : (s.setFab x).gruRuns = s.gruRuns := rfl
@[simp] theorem State.setFab_tierA (x : Fab) : (s.setFab x).tierA = s.tierA := rfl
@[simp] theorem State.setFab_tierB (x : Fab) : (s.setFab x).tierB = s.tierB := rfl
@[simp] theorem State.setFab_mem (x : Fab) : (s.setFab x).mem = s.mem := rfl
@[simp] theorem State.setFab_flc (x : Fab) : (s.setFab x).flc = s.flc := rfl
@[simp] theorem State.setFab_fab (x : Fab) : (s.setFab x).fab = x := rfl
@[simp] theorem State.setFab_mrd (x : Fab) : (s.setFab x).mrd = s.mrd := rfl
@[simp] theorem State.setFab_sec (x : Fab) : (s.setFab x).sec = s.sec := rfl
@[simp] theorem State.setFab_rng (x : Fab) : (s.setFab x).rng = s.rng := rfl
@[simp] theorem State.setFab_fw (x : Fab) : (s.setFab x).fw = s.fw := rfl
@[simp] theorem State.setFab_pwr (x : Fab) : (s.setFab x).pwr = s.pwr := rfl

@[simp] theorem State.setMsg_pending (i : Nat) (m : Msg) : (s.setMsg i m).pending = s.pending := rfl
@[simp] theorem State.setMsg_out (i : Nat) (m : Msg) : (s.setMsg i m).out = s.out := rfl
@[simp] theorem State.setMsg_free (i : Nat) (m : Msg) : (s.setMsg i m).free = s.free := rfl
@[simp] theorem State.setMsg_now (i : Nat) (m : Msg) : (s.setMsg i m).now = s.now := rfl
@[simp] theorem State.setMsg_glb (i : Nat) (m : Msg) : (s.setMsg i m).glb = s.glb := rfl
@[simp] theorem State.setMsg_evSeq (i : Nat) (m : Msg) : (s.setMsg i m).evSeq = s.evSeq := rfl
@[simp] theorem State.setMsg_cntMod (i : Nat) (m : Msg) : (s.setMsg i m).cntMod = s.cntMod := rfl
@[simp] theorem State.setMsg_cntPart (i : Nat) (m : Msg) : (s.setMsg i m).cntPart = s.cntPart := rfl
@[simp] theorem State.setMsg_hif (i : Nat) (m : Msg) : (s.setMsg i m).hif = s.hif := rfl
@[simp] theorem State.setMsg_ops (i : Nat) (m : Msg) : (s.setMsg i m).ops = s.ops := rfl
@[simp] theorem State.setMsg_nextOp (i : Nat) (m : Msg) : (s.setMsg i m).nextOp = s.nextOp := rfl
@[simp] theorem State.setMsg_parts (i : Nat) (m : Msg) : (s.setMsg i m).parts = s.parts := rfl
@[simp] theorem State.setMsg_layout (i : Nat) (m : Msg) : (s.setMsg i m).layout = s.layout := rfl
@[simp] theorem State.setMsg_panels (i : Nat) (m : Msg) : (s.setMsg i m).panels = s.panels := rfl
@[simp] theorem State.setMsg_regions (i : Nat) (m : Msg) : (s.setMsg i m).regions = s.regions := rfl
@[simp] theorem State.setMsg_nextDef (i : Nat) (m : Msg) : (s.setMsg i m).nextDef = s.nextDef := rfl
@[simp] theorem State.setMsg_xfers (i : Nat) (m : Msg) : (s.setMsg i m).xfers = s.xfers := rfl
@[simp] theorem State.setMsg_nextX (i : Nat) (m : Msg) : (s.setMsg i m).nextX = s.nextX := rfl
@[simp] theorem State.setMsg_rounds (i : Nat) (m : Msg) : (s.setMsg i m).rounds = s.rounds := rfl
@[simp] theorem State.setMsg_ingest (i : Nat) (m : Msg) : (s.setMsg i m).ingest = s.ingest := rfl
@[simp] theorem State.setMsg_loom (i : Nat) (m : Msg) : (s.setMsg i m).loom = s.loom := rfl
@[simp] theorem State.setMsg_shc (i : Nat) (m : Msg) : (s.setMsg i m).shc = s.shc := rfl
@[simp] theorem State.setMsg_grus (i : Nat) (m : Msg) : (s.setMsg i m).grus = s.grus := rfl
@[simp] theorem State.setMsg_keysets (i : Nat) (m : Msg) : (s.setMsg i m).keysets = s.keysets := rfl
@[simp] theorem State.setMsg_progs (i : Nat) (m : Msg) : (s.setMsg i m).progs = s.progs := rfl
@[simp] theorem State.setMsg_gruRuns (i : Nat) (m : Msg) : (s.setMsg i m).gruRuns = s.gruRuns := rfl
@[simp] theorem State.setMsg_tierA (i : Nat) (m : Msg) : (s.setMsg i m).tierA = s.tierA := rfl
@[simp] theorem State.setMsg_tierB (i : Nat) (m : Msg) : (s.setMsg i m).tierB = s.tierB := rfl
@[simp] theorem State.setMsg_mem (i : Nat) (m : Msg) : (s.setMsg i m).mem = s.mem := rfl
@[simp] theorem State.setMsg_flc (i : Nat) (m : Msg) : (s.setMsg i m).flc = s.flc := rfl
@[simp] theorem State.setMsg_fab (i : Nat) (m : Msg) : (s.setMsg i m).fab = { s.fab with msgs := tset i m s.fab.msgs } := rfl
@[simp] theorem State.setMsg_mrd (i : Nat) (m : Msg) : (s.setMsg i m).mrd = s.mrd := rfl
@[simp] theorem State.setMsg_sec (i : Nat) (m : Msg) : (s.setMsg i m).sec = s.sec := rfl
@[simp] theorem State.setMsg_rng (i : Nat) (m : Msg) : (s.setMsg i m).rng = s.rng := rfl
@[simp] theorem State.setMsg_fw (i : Nat) (m : Msg) : (s.setMsg i m).fw = s.fw := rfl
@[simp] theorem State.setMsg_pwr (i : Nat) (m : Msg) : (s.setMsg i m).pwr = s.pwr := rfl

@[simp] theorem State.setRx_pending (i : Nat) (e : RxEntry) : (s.setRx i e).pending = s.pending := rfl
@[simp] theorem State.setRx_out (i : Nat) (e : RxEntry) : (s.setRx i e).out = s.out := rfl
@[simp] theorem State.setRx_free (i : Nat) (e : RxEntry) : (s.setRx i e).free = s.free := rfl
@[simp] theorem State.setRx_now (i : Nat) (e : RxEntry) : (s.setRx i e).now = s.now := rfl
@[simp] theorem State.setRx_glb (i : Nat) (e : RxEntry) : (s.setRx i e).glb = s.glb := rfl
@[simp] theorem State.setRx_evSeq (i : Nat) (e : RxEntry) : (s.setRx i e).evSeq = s.evSeq := rfl
@[simp] theorem State.setRx_cntMod (i : Nat) (e : RxEntry) : (s.setRx i e).cntMod = s.cntMod := rfl
@[simp] theorem State.setRx_cntPart (i : Nat) (e : RxEntry) : (s.setRx i e).cntPart = s.cntPart := rfl
@[simp] theorem State.setRx_hif (i : Nat) (e : RxEntry) : (s.setRx i e).hif = s.hif := rfl
@[simp] theorem State.setRx_ops (i : Nat) (e : RxEntry) : (s.setRx i e).ops = s.ops := rfl
@[simp] theorem State.setRx_nextOp (i : Nat) (e : RxEntry) : (s.setRx i e).nextOp = s.nextOp := rfl
@[simp] theorem State.setRx_parts (i : Nat) (e : RxEntry) : (s.setRx i e).parts = s.parts := rfl
@[simp] theorem State.setRx_layout (i : Nat) (e : RxEntry) : (s.setRx i e).layout = s.layout := rfl
@[simp] theorem State.setRx_panels (i : Nat) (e : RxEntry) : (s.setRx i e).panels = s.panels := rfl
@[simp] theorem State.setRx_regions (i : Nat) (e : RxEntry) : (s.setRx i e).regions = s.regions := rfl
@[simp] theorem State.setRx_nextDef (i : Nat) (e : RxEntry) : (s.setRx i e).nextDef = s.nextDef := rfl
@[simp] theorem State.setRx_xfers (i : Nat) (e : RxEntry) : (s.setRx i e).xfers = s.xfers := rfl
@[simp] theorem State.setRx_nextX (i : Nat) (e : RxEntry) : (s.setRx i e).nextX = s.nextX := rfl
@[simp] theorem State.setRx_rounds (i : Nat) (e : RxEntry) : (s.setRx i e).rounds = s.rounds := rfl
@[simp] theorem State.setRx_ingest (i : Nat) (e : RxEntry) : (s.setRx i e).ingest = s.ingest := rfl
@[simp] theorem State.setRx_loom (i : Nat) (e : RxEntry) : (s.setRx i e).loom = s.loom := rfl
@[simp] theorem State.setRx_shc (i : Nat) (e : RxEntry) : (s.setRx i e).shc = s.shc := rfl
@[simp] theorem State.setRx_grus (i : Nat) (e : RxEntry) : (s.setRx i e).grus = s.grus := rfl
@[simp] theorem State.setRx_keysets (i : Nat) (e : RxEntry) : (s.setRx i e).keysets = s.keysets := rfl
@[simp] theorem State.setRx_progs (i : Nat) (e : RxEntry) : (s.setRx i e).progs = s.progs := rfl
@[simp] theorem State.setRx_gruRuns (i : Nat) (e : RxEntry) : (s.setRx i e).gruRuns = s.gruRuns := rfl
@[simp] theorem State.setRx_tierA (i : Nat) (e : RxEntry) : (s.setRx i e).tierA = s.tierA := rfl
@[simp] theorem State.setRx_tierB (i : Nat) (e : RxEntry) : (s.setRx i e).tierB = s.tierB := rfl
@[simp] theorem State.setRx_mem (i : Nat) (e : RxEntry) : (s.setRx i e).mem = s.mem := rfl
@[simp] theorem State.setRx_flc (i : Nat) (e : RxEntry) : (s.setRx i e).flc = s.flc := rfl
@[simp] theorem State.setRx_fab (i : Nat) (e : RxEntry) : (s.setRx i e).fab = { s.fab with rx := tset i e s.fab.rx } := rfl
@[simp] theorem State.setRx_mrd (i : Nat) (e : RxEntry) : (s.setRx i e).mrd = s.mrd := rfl
@[simp] theorem State.setRx_sec (i : Nat) (e : RxEntry) : (s.setRx i e).sec = s.sec := rfl
@[simp] theorem State.setRx_rng (i : Nat) (e : RxEntry) : (s.setRx i e).rng = s.rng := rfl
@[simp] theorem State.setRx_fw (i : Nat) (e : RxEntry) : (s.setRx i e).fw = s.fw := rfl
@[simp] theorem State.setRx_pwr (i : Nat) (e : RxEntry) : (s.setRx i e).pwr = s.pwr := rfl

@[simp] theorem State.setIng_pending (p : Nat) (g : Ingest) : (s.setIng p g).pending = s.pending := rfl
@[simp] theorem State.setIng_out (p : Nat) (g : Ingest) : (s.setIng p g).out = s.out := rfl
@[simp] theorem State.setIng_free (p : Nat) (g : Ingest) : (s.setIng p g).free = s.free := rfl
@[simp] theorem State.setIng_now (p : Nat) (g : Ingest) : (s.setIng p g).now = s.now := rfl
@[simp] theorem State.setIng_glb (p : Nat) (g : Ingest) : (s.setIng p g).glb = s.glb := rfl
@[simp] theorem State.setIng_evSeq (p : Nat) (g : Ingest) : (s.setIng p g).evSeq = s.evSeq := rfl
@[simp] theorem State.setIng_cntMod (p : Nat) (g : Ingest) : (s.setIng p g).cntMod = s.cntMod := rfl
@[simp] theorem State.setIng_cntPart (p : Nat) (g : Ingest) : (s.setIng p g).cntPart = s.cntPart := rfl
@[simp] theorem State.setIng_hif (p : Nat) (g : Ingest) : (s.setIng p g).hif = s.hif := rfl
@[simp] theorem State.setIng_ops (p : Nat) (g : Ingest) : (s.setIng p g).ops = s.ops := rfl
@[simp] theorem State.setIng_nextOp (p : Nat) (g : Ingest) : (s.setIng p g).nextOp = s.nextOp := rfl
@[simp] theorem State.setIng_parts (p : Nat) (g : Ingest) : (s.setIng p g).parts = s.parts := rfl
@[simp] theorem State.setIng_layout (p : Nat) (g : Ingest) : (s.setIng p g).layout = s.layout := rfl
@[simp] theorem State.setIng_panels (p : Nat) (g : Ingest) : (s.setIng p g).panels = s.panels := rfl
@[simp] theorem State.setIng_regions (p : Nat) (g : Ingest) : (s.setIng p g).regions = s.regions := rfl
@[simp] theorem State.setIng_nextDef (p : Nat) (g : Ingest) : (s.setIng p g).nextDef = s.nextDef := rfl
@[simp] theorem State.setIng_xfers (p : Nat) (g : Ingest) : (s.setIng p g).xfers = s.xfers := rfl
@[simp] theorem State.setIng_nextX (p : Nat) (g : Ingest) : (s.setIng p g).nextX = s.nextX := rfl
@[simp] theorem State.setIng_rounds (p : Nat) (g : Ingest) : (s.setIng p g).rounds = s.rounds := rfl
@[simp] theorem State.setIng_ingest (p : Nat) (g : Ingest) : (s.setIng p g).ingest = tset p g s.ingest := rfl
@[simp] theorem State.setIng_loom (p : Nat) (g : Ingest) : (s.setIng p g).loom = s.loom := rfl
@[simp] theorem State.setIng_shc (p : Nat) (g : Ingest) : (s.setIng p g).shc = s.shc := rfl
@[simp] theorem State.setIng_grus (p : Nat) (g : Ingest) : (s.setIng p g).grus = s.grus := rfl
@[simp] theorem State.setIng_keysets (p : Nat) (g : Ingest) : (s.setIng p g).keysets = s.keysets := rfl
@[simp] theorem State.setIng_progs (p : Nat) (g : Ingest) : (s.setIng p g).progs = s.progs := rfl
@[simp] theorem State.setIng_gruRuns (p : Nat) (g : Ingest) : (s.setIng p g).gruRuns = s.gruRuns := rfl
@[simp] theorem State.setIng_tierA (p : Nat) (g : Ingest) : (s.setIng p g).tierA = s.tierA := rfl
@[simp] theorem State.setIng_tierB (p : Nat) (g : Ingest) : (s.setIng p g).tierB = s.tierB := rfl
@[simp] theorem State.setIng_mem (p : Nat) (g : Ingest) : (s.setIng p g).mem = s.mem := rfl
@[simp] theorem State.setIng_flc (p : Nat) (g : Ingest) : (s.setIng p g).flc = s.flc := rfl
@[simp] theorem State.setIng_fab (p : Nat) (g : Ingest) : (s.setIng p g).fab = s.fab := rfl
@[simp] theorem State.setIng_mrd (p : Nat) (g : Ingest) : (s.setIng p g).mrd = s.mrd := rfl
@[simp] theorem State.setIng_sec (p : Nat) (g : Ingest) : (s.setIng p g).sec = s.sec := rfl
@[simp] theorem State.setIng_rng (p : Nat) (g : Ingest) : (s.setIng p g).rng = s.rng := rfl
@[simp] theorem State.setIng_fw (p : Nat) (g : Ingest) : (s.setIng p g).fw = s.fw := rfl
@[simp] theorem State.setIng_pwr (p : Nat) (g : Ingest) : (s.setIng p g).pwr = s.pwr := rfl

end Sys2Proof.Machine
end

