-- ==== Sys2Proof/Laws/Table.lean ====
section
/-! SUPPORT. Sparse tables: what a read gives after a write or a removal, at the same key and at another. -/

namespace Sys2Proof.Machine

variable {α : Type}

@[simp] theorem tget_nil (d : α) (k : Nat) : tget d [] k = d := rfl

@[simp] theorem tfind_nil (k : Nat) : tfind ([] : Tbl α) k = none := rfl

theorem tfind_cons (e : Nat × α) (t : Tbl α) (k : Nat) : tfind (e :: t) k = if e.1 = k then some e.2 else tfind t k := by
  by_cases h : e.1 = k <;> simp [tfind, h]

/-- A table read is the listed entry, or the default. -/
theorem tget_eq_tfind (d : α) (t : Tbl α) (k : Nat) : tget d t k = (tfind t k).getD d := by
  induction t with
  | nil => rfl
  | cons e t ih =>
    obtain ⟨k', v⟩ := e
    rw [tfind_cons]
    by_cases h : k = k'
    · subst h; simp [tget]
    · simp [tget, h, ih, Ne.symm h]

@[simp] theorem tfind_tset_same (t : Tbl α) (k : Nat) (v : α) : tfind (tset k v t) k = some v := by
  induction t with
  | nil => simp [tset, tfind_cons]
  | cons e t ih =>
    simp only [tset]
    split
    · simp [tfind_cons]
    · split
      · simp [tfind_cons]
      · rw [tfind_cons]; simp_all [eq_comm]

theorem tfind_tset_ne (t : Tbl α) {k k' : Nat} (v : α) (h : k' ≠ k) : tfind (tset k v t) k' = tfind t k' := by
  induction t with
  | nil => simp [tset, tfind_cons, Ne.symm h]
  | cons e t ih =>
    simp only [tset]
    split
    · rename_i he; simp [tfind_cons, Ne.symm h, ← he]
    · split
      · simp [tfind_cons, Ne.symm h]
      · rw [tfind_cons, ih, ← tfind_cons e t k']

@[simp] theorem tget_tset_same (d : α) (t : Tbl α) (k : Nat) (v : α) : tget d (tset k v t) k = v := by
  simp [tget_eq_tfind]

theorem tget_tset_ne (d : α) (t : Tbl α) {k k' : Nat} (v : α) (h : k' ≠ k) : tget d (tset k v t) k' = tget d t k' := by
  simp [tget_eq_tfind, tfind_tset_ne t v h]

@[simp] theorem tfind_tdel_same (t : Tbl α) (k : Nat) : tfind (tdel k t) k = none := by
  induction t with
  | nil => rfl
  | cons e t ih =>
    by_cases h : e.1 = k
    · simpa [tdel, h] using ih
    · rw [tdel, List.filter_cons_of_pos (by simpa using h), tfind_cons, if_neg h]; exact ih

theorem tfind_tdel_ne (t : Tbl α) {k k' : Nat} (h : k' ≠ k) : tfind (tdel k t) k' = tfind t k' := by
  induction t with
  | nil => rfl
  | cons e t ih =>
    rw [tfind_cons]
    by_cases hk : e.1 = k
    · rw [tdel, List.filter_cons_of_neg (by simp [hk]), if_neg (by rw [hk]; exact Ne.symm h)]; exact ih
    · rw [tdel, List.filter_cons_of_pos (by simpa using hk), tfind_cons]
      split
      · rfl
      · exact ih

/-- What a table lists after a write: the new entry, and no other that it did not list before. -/
theorem mem_tset {t : Tbl α} {k : Nat} {v : α} {e : Nat × α} (h : e ∈ tset k v t) : e = (k, v) ∨ e ∈ t := by
  induction t with
  | nil => simpa [tset] using h
  | cons a t ih =>
    simp only [tset] at h
    split at h
    · rename_i hk; subst hk; rcases List.mem_cons.1 h with h | h
      · exact .inl h
      · exact .inr (List.mem_cons_of_mem _ h)
    · split at h
      · rcases List.mem_cons.1 h with h | h
        · exact .inl h
        · exact .inr h
      · rcases List.mem_cons.1 h with h | h
        · exact .inr (h ▸ List.mem_cons_self)
        · exact (ih h).imp id (List.mem_cons_of_mem _)

end Sys2Proof.Machine
end

