-- ==== Sys2Proof/Laws/Report.lean ====
section
/-! SUPPORT. What reports can do: an event, a count and the end of a descriptor change the reporting part of the state
alone; an event raises the sequence of its source and no ticket; the end of a descriptor ends that ticket and no other. -/

namespace Sys2Proof.Machine

/-! ## Frames -/

theorem foldl_keeps {α β γ : Type} (g : α → γ) (f : α → β → α) (h : ∀ a b, g (f a b) = g a) (l : List β) (a : α) :
    g (l.foldl f a) = g a := by
  induction l generalizing a with
  | nil => rfl
  | cons b l ih => rw [List.foldl_cons, ih, h]

theorem onRep_eq (f : Rep → Rep) (s : State) : onRep f s = setRep s (f (repOf s)) := rfl

theorem onlyReports_onRep (f : Rep → Rep) (s : State) : OnlyReports s (onRep f s) := rfl

theorem OnlyReports.refl (s : State) : OnlyReports s s := rfl

theorem OnlyReports.trans {s t u : State} (h : OnlyReports s t) (k : OnlyReports t u) : OnlyReports s u := by
  unfold OnlyReports at *; rw [k, h]; rfl

theorem onlyReports_raise (s : State) (src code part : Nat) (d : Bytes) : OnlyReports s (s.raise src code part d) := rfl

theorem onlyReports_count (s : State) (page : Option Nat) (idx n : Nat) : OnlyReports s (s.count page idx n) := rfl

theorem onlyReports_countError (s : State) (p : Option Nat) (idx : Nat) : OnlyReports s (s.countError p idx) := by
  cases p <;> rfl

theorem onlyReports_finish (s : State) (id st : Nat) (d : Bytes) : OnlyReports s (s.finish id st d) := rfl

theorem onlyReports_put (s : State) (o : Output) : OnlyReports s (s.put o) := rfl

theorem onlyReports_setFn (s : State) (f : Nat) (h : HifFn) : OnlyReports s (s.setFn f h) := rfl

theorem onlyReports_setOp (s : State) (id : Nat) (o : Op) : OnlyReports s (s.setOp id o) := rfl

/-! ## Events -/

@[simp] theorem Rep.setCounter_ops (r : Rep) (pg : Option Nat) (i : Nat) (c : Counter) : (r.setCounter pg i c).ops = r.ops := by
  cases pg <;> rfl

@[simp] theorem Rep.setCounter_now (r : Rep) (pg : Option Nat) (i : Nat) (c : Counter) : (r.setCounter pg i c).now = r.now := by
  cases pg <;> rfl

@[simp] theorem Rep.setCounter_evSeq (r : Rep) (pg : Option Nat) (i : Nat) (c : Counter) :
    (r.setCounter pg i c).evSeq = r.evSeq := by
  cases pg <;> rfl

@[simp] theorem Rep.setCounter_hif (r : Rep) (pg : Option Nat) (i : Nat) (c : Counter) : (r.setCounter pg i c).hif = r.hif := by
  cases pg <;> rfl

@[simp] theorem Rep.setCounter_out (r : Rep) (pg : Option Nat) (i : Nat) (c : Counter) : (r.setCounter pg i c).out = r.out := by
  cases pg <;> rfl

/-- What a vector, a record or a held record of any function leaves alone: tickets, the time, the event sequences. -/
def Rep.core (r : Rep) : Nat × Tbl Nat × Tbl Op := (r.now, r.evSeq, r.ops)

theorem Rep.vector_core (r : Rep) (f v : Nat) : (r.vector f v).core = r.core := by
  unfold Rep.vector; split <;> rfl

theorem Rep.setFn_core (r : Rep) (f : Nat) (h : HifFn) : (r.setFn f h).core = r.core := rfl

theorem Rep.evVector_core (r : Rep) (f : Nat) : (r.evVector f).core = r.core := by
  unfold Rep.evVector
  dsimp only
  split
  · split
    · rfl
    · rw [Rep.vector_core, Rep.setFn_core]
  · rw [Rep.vector_core, Rep.setFn_core]

theorem Rep.putEv_core (r : Rep) (f : Nat) (e : EvRec) : (r.putEv f e).1.core = r.core := by
  unfold Rep.putEv
  dsimp only
  split
  · split
    · unfold Rep.writeEv; rw [Rep.evVector_core]; rfl
    · rfl
  · split <;> rfl

/-- What an event at one ring keeps: anything that no placed record and no counter changes. -/
theorem Rep.offerEv_keeps {γ : Type} (g : Rep → γ) (h1 : ∀ r f e, g (Rep.putEv r f e).1 = g r)
    (h2 : ∀ r pg i c, g (Rep.setCounter r pg i c) = g r) (e : EvRec) (acc : Rep × List Nat) (f : Nat) :
    g (Rep.offerEv e acc f).1 = g acc.1 := by
  unfold Rep.offerEv
  have hp := h1 acc.1 f e
  rcases ha : acc.1.putEv f e with ⟨a', b⟩
  rw [ha] at hp
  cases b
  · exact hp
  · exact (h2 _ _ _ _).trans hp

theorem Rep.offers_keep {γ : Type} (g : Rep → γ) (h1 : ∀ r f e, g (Rep.putEv r f e).1 = g r)
    (h2 : ∀ r pg i c, g (Rep.setCounter r pg i c) = g r) (e : EvRec) (l : List Nat) (acc : Rep × List Nat) :
    g (l.foldl (Rep.offerEv e) acc).1 = g acc.1 :=
  foldl_keeps (fun x : Rep × List Nat => g x.1) _ (fun x f => Rep.offerEv_keeps g h1 h2 e x f) l acc

/-- What an event keeps: anything that no placed record, no counter and no sequence changes. -/
theorem Rep.raiseN_keeps {γ : Type} (g : Rep → γ) (h1 : ∀ r f e, g (Rep.putEv r f e).1 = g r)
    (h2 : ∀ r pg i c, g (Rep.setCounter r pg i c) = g r) (h3 : ∀ r t, g { r with evSeq := t } = g r)
    (fuel src code part : Nat) (d : Bytes) (r : Rep) : g (Rep.raiseN fuel src code part d r) = g r := by
  induction fuel generalizing src code part d r with
  | zero => rfl
  | succ n ih =>
    rw [Rep.raiseN]
    rw [foldl_keeps g _ (fun a f => ih _ _ _ _ _), Rep.offers_keep g h1 h2, h3]

theorem Rep.raise_ops (r : Rep) (src code part : Nat) (d : Bytes) : (r.raise src code part d).ops = r.ops :=
  Rep.raiseN_keeps (·.ops) (fun r f e => congrArg (·.2.2) (Rep.putEv_core r f e)) (by simp) (by simp) _ _ _ _ _ _

theorem Rep.raise_now (r : Rep) (src code part : Nat) (d : Bytes) : (r.raise src code part d).now = r.now :=
  Rep.raiseN_keeps (·.now) (fun r f e => congrArg (·.1) (Rep.putEv_core r f e)) (by simp) (by simp) _ _ _ _ _ _

/-- No event takes anything from what the module has put out. -/
theorem Rep.putEv_out (r : Rep) (f : Nat) (e : EvRec) : ∃ l, (r.putEv f e).1.out = r.out ++ l := by
  have hv : ∀ (r : Rep) f v, ∃ l, (r.vector f v).out = r.out ++ l := by
    intro r f v; unfold Rep.vector; split
    · exact ⟨[], by simp⟩
    · exact ⟨[.msix f v], rfl⟩
  have he : ∀ (r : Rep) f, ∃ l, (r.evVector f).out = r.out ++ l := by
    intro r f; unfold Rep.evVector; dsimp only
    split
    · split
      · exact ⟨[], by simp [Rep.setFn]⟩
      · exact hv _ _ _
    · exact hv _ _ _
  unfold Rep.putEv
  dsimp only
  split
  · split
    · unfold Rep.writeEv
      dsimp only
      obtain ⟨l, hl⟩ := he (((r.put (.hostWrite f ((r.fn f).rs.eqBase + 32 * (r.fn f).rs.eqProd)
        (evBytes f e (r.fn f).rs.eqPass))).setFn f _)) f
      exact ⟨[.hostWrite f ((r.fn f).rs.eqBase + 32 * (r.fn f).rs.eqProd) (evBytes f e (r.fn f).rs.eqPass)] ++ l, by
        rw [hl]; simp only [Rep.setFn, Rep.put, List.append_assoc]⟩
    · exact ⟨[], by simp⟩
  · split
    · exact ⟨[], by simp [Rep.setFn]⟩
    · exact ⟨[], by simp⟩

/-- An event raises the sequence of its source by one and that of no other but Global, which a saturating drop count may
raise (R23, R405). -/
theorem Rep.raiseN_evSeq (n src code part : Nat) (d : Bytes) (r : Rep) (x : Nat) (hx : x ≠ srcGlobal) :
    tget 0 (Rep.raiseN (n + 1) src code part d r).evSeq x =
      if x = src then (tget 0 r.evSeq src + 1) % 2 ^ 32 else tget 0 r.evSeq x := by
  have put : ∀ (r : Rep) f e, tget 0 (Rep.putEv r f e).1.evSeq x = tget 0 r.evSeq x :=
    fun r f e => by rw [show (Rep.putEv r f e).1.evSeq = r.evSeq from congrArg (·.2.1) (Rep.putEv_core r f e)]
  have set : ∀ (r : Rep) pg i c, tget 0 (Rep.setCounter r pg i c).evSeq x = tget 0 r.evSeq x := by simp
  have other : ∀ (m : Nat) code part d (r : Rep), tget 0 (Rep.raiseN m srcGlobal code part d r).evSeq x = tget 0 r.evSeq x := by
    intro m
    induction m with
    | zero => intros; rfl
    | succ m ih =>
      intro code part d r
      rw [Rep.raiseN]
      rw [foldl_keeps (fun r : Rep => tget 0 r.evSeq x) _ (fun a f => ih _ _ _ _),
        Rep.offers_keep (fun r : Rep => tget 0 r.evSeq x) put set]
      exact tget_tset_ne 0 _ _ hx
  rw [Rep.raiseN]
  rw [foldl_keeps (fun r : Rep => tget 0 r.evSeq x) _ (fun a f => other _ _ _ _ _),
    Rep.offers_keep (fun r : Rep => tget 0 r.evSeq x) put set]
  dsimp only
  split
  · rename_i h; subst h; exact tget_tset_same _ _ _ _
  · exact tget_tset_ne 0 _ _ ‹_›

theorem State.raise_evSeq (s : State) (src code part : Nat) (d : Bytes) (x : Nat) (hx : x ≠ srcGlobal) :
    tget 0 (s.raise src code part d).evSeq x =
      if x = src then (tget 0 s.evSeq src + 1) % 2 ^ 32 else tget 0 s.evSeq x :=
  Rep.raiseN_evSeq 39 src code part d (repOf s) x hx

@[simp] theorem State.raise_ops (s : State) (src code part : Nat) (d : Bytes) : (s.raise src code part d).ops = s.ops :=
  Rep.raise_ops (repOf s) src code part d

/-! ## Counts -/

theorem Rep.count_ops (r : Rep) (pg : Option Nat) (i n : Nat) : (r.count pg i n).ops = r.ops := by
  unfold Rep.count; dsimp only; split
  · rw [Rep.raise_ops, Rep.setCounter_ops]
  · rw [Rep.setCounter_ops]

theorem Rep.count_now (r : Rep) (pg : Option Nat) (i n : Nat) : (r.count pg i n).now = r.now := by
  unfold Rep.count; dsimp only; split
  · rw [Rep.raise_now, Rep.setCounter_now]
  · rw [Rep.setCounter_now]

theorem Rep.count_evSeq (r : Rep) (pg : Option Nat) (i n x : Nat) (hx : x ≠ srcGlobal) :
    tget 0 (r.count pg i n).evSeq x = tget 0 r.evSeq x := by
  unfold Rep.count; dsimp only; split
  · rw [Rep.raise, Rep.raiseN_evSeq _ _ _ _ _ _ _ hx, if_neg hx, Rep.setCounter_evSeq]
  · rw [Rep.setCounter_evSeq]

@[simp] theorem State.count_ops (s : State) (pg : Option Nat) (i n : Nat) : (s.count pg i n).ops = s.ops :=
  Rep.count_ops (repOf s) pg i n

theorem State.count_evSeq (s : State) (pg : Option Nat) (i n x : Nat) (hx : x ≠ srcGlobal) :
    tget 0 (s.count pg i n).evSeq x = tget 0 s.evSeq x :=
  Rep.count_evSeq (repOf s) pg i n x hx

/-- A counter after a count, where the event of its saturation is not looked at (R405). -/
@[simp] theorem Rep.counter_setCounter (r : Rep) (pg : Option Nat) (i : Nat) (c : Counter) :
    (r.setCounter pg i c).counter pg i = c := by
  cases pg <;> simp [Rep.setCounter, Rep.counter]

/-! ## The end of a descriptor -/

theorem Rep.writeCpl_ops (r : Rep) (f : Nat) (c : CplRec) : (r.writeCpl f c).ops = r.ops := by
  unfold Rep.writeCpl; dsimp only
  split
  · exact congrArg (·.2.2) (Rep.vector_core _ _ _)
  · rfl

/-- Where a record goes, its ticket is freed or stands as it was. -/
theorem Rep.placeCpl_ops (r : Rep) (f : Nat) (c : CplRec) :
    (r.placeCpl f c).ops = r.ops ∨ ∃ id, c.op = some id ∧ (r.placeCpl f c).ops = tdel id r.ops := by
  have hf : ∀ (r : Rep) (x : Option Nat), (r.freeOp x).ops = r.ops ∨ ∃ id, x = some id ∧ (r.freeOp x).ops = tdel id r.ops := by
    intro r x; cases x with
    | none => exact .inl rfl
    | some id => exact .inr ⟨id, rfl, rfl⟩
  unfold Rep.placeCpl; dsimp only
  split
  · split
    · split
      · have := hf (r.writeCpl f c) c.op; rwa [Rep.writeCpl_ops] at this
      · exact .inl rfl
    · split
      · exact hf _ _
      · rw [Rep.count_ops]; exact .inl rfl
  · split
    · exact hf _ _
    · rw [Rep.count_ops]; exact .inl rfl

theorem Rep.cmdResult_ops (r : Rep) (f : Nat) (c : CplRec) : (r.cmdResult f c).ops = r.ops := by
  unfold Rep.cmdResult; exact congrArg (·.2.2) (Rep.vector_core _ _ _)

theorem Rep.finish_ops (r : Rep) (id st : Nat) (d : Bytes) :
    (∀ x, x ≠ id → tfind (r.finish id st d).ops x = tfind r.ops x)
      ∧ ∀ o, tfind (r.finish id st d).ops id = some o → o.phase = .done ∧ o.status = st := by
  unfold Rep.finish
  split
  · exact ⟨fun _ _ => rfl, fun o h => by rw [‹tfind r.ops id = none›] at h; cases h⟩
  · dsimp only
    split
    · simp only [Rep.freeOp, Rep.cmdResult_ops]
      exact ⟨fun x hx => tfind_tdel_ne _ hx, fun o h => by rw [tfind_tdel_same] at h; cases h⟩
    · split
      · exact ⟨fun x hx => tfind_tdel_ne _ hx, fun o h => by simp [Rep.freeOp] at h⟩
      · rename_i o0 _ _ _ _
        rcases Rep.placeCpl_ops { r with ops := tset id { o0 with phase := .done, status := st, detail := d } r.ops } o0.fn
          ⟨o0.tag, st, o0.opcode, o0.idx, d, r.now, false, some id⟩ with h | ⟨x, hx, h⟩
        · rw [h]
          refine ⟨fun x hx => tfind_tset_ne _ _ hx, fun o ho => ?_⟩
          rw [tfind_tset_same] at ho; cases ho; exact ⟨rfl, rfl⟩
        · cases hx
          rw [h]
          refine ⟨fun x hx => by rw [tfind_tdel_ne _ hx, tfind_tset_ne _ _ hx], fun o ho => ?_⟩
          rw [tfind_tdel_same] at ho; cases ho

/-- A descriptor that is ended has ended, with its status (R255, R259, R268). -/
theorem finish_ended (s : State) (id st : Nat) (d : Bytes) : Ended (s.finish id st d) id st :=
  fun o h => (Rep.finish_ops (repOf s) id st d).2 o h

/-- The end of a descriptor leaves every other ticket. -/
theorem finish_op_ne (s : State) {id x : Nat} (st : Nat) (d : Bytes) (h : x ≠ id) : (s.finish id st d).op x = s.op x :=
  (Rep.finish_ops (repOf s) id st d).1 x h

end Sys2Proof.Machine
end

