-- ==== Sys2Proof/Laws/MemOps.lean ====
section
/-! SUPPORT. What the accesses to tiers A and B can do: no report, round end, retirement or read changes a byte of a tier;
every write and blanking keeps both tiers in canonical form; a read that meets no error changes nothing. -/

namespace Sys2Proof.Machine

/-! ## What changes no byte -/

theorem SameMemory.refl (s : State) : SameMemory s s := ⟨rfl, rfl⟩

theorem SameMemory.trans {s t u : State} (h : SameMemory s t) (k : SameMemory t u) : SameMemory s u :=
  ⟨k.1.trans h.1, k.2.trans h.2⟩

theorem SameMemory.memOk {s t : State} (h : SameMemory s t) (k : s.memOk) : t.memOk := by
  unfold State.memOk at *; rw [h.1, h.2]; exact k

theorem OnlyReports.sameMemory {s t : State} (h : OnlyReports s t) : SameMemory s t := by
  unfold OnlyReports at h; rw [h]; exact ⟨rfl, rfl⟩

theorem sameMemory_foldl {β : Type} (f : State → β → State) (h : ∀ a b, SameMemory a (f a b)) (l : List β) (s : State) :
    SameMemory s (l.foldl f s) := by
  induction l generalizing s with
  | nil => exact .refl s
  | cons b l ih => exact (h s b).trans (ih _)

theorem sameMemory_raise (s : State) (src code part : Nat) (d : Bytes) : SameMemory s (s.raise src code part d) := ⟨rfl, rfl⟩

theorem sameMemory_countMod (s : State) (i : Nat) : SameMemory s (s.countMod i) := ⟨rfl, rfl⟩

theorem sameMemory_countError (s : State) (p : Option Nat) (i : Nat) : SameMemory s (s.countError p i) :=
  (onlyReports_countError s p i).sameMemory

theorem sameMemory_finish (s : State) (id st : Nat) (d : Bytes) : SameMemory s (s.finish id st d) := ⟨rfl, rfl⟩

theorem sameMemory_dropStaged (s : State) (r : Nat) : SameMemory s (s.dropStaged r) :=
  SameMemory.trans (t := s.setRound r { s.round r with staged := [] }) ⟨rfl, rfl⟩
    (sameMemory_foldl _ (fun a (e : Staged) => sameMemory_finish a e.op stAggState []) _ _)

theorem sameMemory_abortRound (s : State) (r cause : Nat) : SameMemory s (s.abortRound r cause) := by
  unfold State.abortRound
  dsimp only
  split
  · split
    · refine SameMemory.trans ?_ (sameMemory_finish _ _ _ _)
      refine SameMemory.trans ?_ (sameMemory_dropStaged _ r)
      exact ⟨rfl, rfl⟩
    · refine SameMemory.trans ?_ (sameMemory_dropStaged _ r)
      exact ⟨rfl, rfl⟩
  · exact .refl s

theorem sameMemory_shardFault (s : State) (tier a : Nat) : SameMemory s (s.shardFault tier a) := by
  unfold State.shardFault
  split
  · exact sameMemory_foldl _ (fun a r => by split; exact sameMemory_abortRound _ _ _; exact .refl _) _ _
  · exact .refl _

theorem sameMemory_retireRow (s : State) (tier pa : Nat) : SameMemory s (s.retireRow tier pa) := by
  unfold State.retireRow; dsimp only; split
  · exact ⟨rfl, rfl⟩
  · split <;> exact ⟨rfl, rfl⟩

theorem sameMemory_latchErr (s : State) (tier pa st : Nat) : SameMemory s (s.latchErr tier pa st) := ⟨rfl, rfl⟩

/-- A line found LASTING keeps its bytes, and so does every other (R200). -/
theorem sameMemory_poisonLine (s : State) (tier pa : Nat) : SameMemory s (s.poisonLine tier pa) := by
  unfold State.poisonLine
  dsimp only
  refine SameMemory.trans ?_ (sameMemory_shardFault _ _ _)
  refine SameMemory.trans ?_ (sameMemory_latchErr _ _ _ _)
  refine SameMemory.trans ?_ (sameMemory_retireRow _ _ _)
  refine SameMemory.trans ?_ (sameMemory_raise _ _ _ _ _)
  refine SameMemory.trans ?_ (sameMemory_countError _ _ _)
  exact ⟨rfl, rfl⟩

/-- Meeting a line, with whatever error lies in it, changes no byte (R199, R200). -/
theorem sameMemory_meetLine (s : State) (p : Option Nat) (tier pa : Nat) : SameMemory s (s.meetLine p tier pa) := by
  unfold State.meetLine
  dsimp only
  split
  · exact .refl _
  · exact SameMemory.trans ⟨rfl, rfl⟩ (sameMemory_countMod _ _)
  · exact SameMemory.trans ⟨rfl, rfl⟩ (sameMemory_countError _ _ _)
  · exact sameMemory_poisonLine _ _ _

/-- A line in which no error lies is met without effect. -/
theorem meetLine_clean {s : State} {tier pa : Nat} (h : tfind s.mem.upset (lineKey tier pa) = none) (p : Option Nat) :
    s.meetLine p tier pa = s := by
  unfold State.meetLine; rw [h]

theorem sameMemory_arise (s : State) (errs : List LineErr) : SameMemory s (s.arise errs) := ⟨rfl, rfl⟩

theorem sameMemory_readLine (p tier : Nat) (acc : State × ReadRes) (ln : Nat) :
    SameMemory acc.1 (readLine p tier acc ln).1 := by
  unfold readLine
  dsimp only
  split
  · exact .refl _
  · exact sameMemory_meetLine _ _ _ _

/-- No read changes a byte of either tier (R199 to R201). -/
theorem sameMemory_memRead (s : State) (p tier a n : Nat) : SameMemory s (s.memRead p tier a n).1 := by
  have h : ∀ (l : List Nat) (acc : State × ReadRes), SameMemory acc.1 (l.foldl (readLine p tier) acc).1 := by
    intro l
    induction l with
    | nil => intro acc; exact .refl _
    | cons x l ih => intro acc; exact (sameMemory_readLine p tier acc x).trans (ih _)
  unfold State.memRead
  split
  · exact h _ _
  · exact .refl _

/-- A line that is neither poisoned nor in error is read without effect. -/
theorem readLine_clean {p tier ln : Nat} {acc : State × ReadRes}
    (h : acc.1.poisoned tier (acc.1.phys p tier (ln * 64)) = false)
    (k : tfind acc.1.mem.upset (lineKey tier (acc.1.phys p tier (ln * 64))) = none) : readLine p tier acc ln = acc := by
  unfold readLine
  dsimp only
  rw [h, if_neg Bool.false_ne_true, meetLine_clean k, k]

/-- A read of clean lines answers the stored bytes, meets nothing and changes nothing. -/
theorem memRead_clean {s : State} {p tier a n : Nat} (h : s.clean p tier a n) :
    s.memRead p tier a n = (s, { readInit with data := s.ptClean p tier a n }) := by
  have k : ∀ (l : List Nat), (∀ ln ∈ l, ln ∈ linesOf a n) → l.foldl (readLine p tier) (s, readInit) = (s, readInit) := by
    intro l
    induction l with
    | nil => intro _; rfl
    | cons x l ih =>
      intro m
      have c := h.2 x (m x (List.mem_cons_self ..))
      rw [List.foldl_cons, readLine_clean (acc := (s, readInit)) c.1 c.2]
      exact ih (fun ln hm => m ln (List.mem_cons_of_mem _ hm))
  unfold State.memRead
  rw [if_pos h.1, k _ (fun _ hm => hm)]

/-! ## Writes and blanking keep the canonical form -/

theorem memOk_setMem {s : State} {tier : Nat} {m : Mem} (h : s.memOk) (hm : Memory.wf m = true) : (s.setMem tier m).memOk := by
  unfold State.setMem
  split
  · exact ⟨hm, h.2⟩
  · exact ⟨h.1, hm⟩

theorem memory_wf_memOf {s : State} (h : s.memOk) (tier : Nat) : Memory.wf (s.memOf tier) = true := by
  unfold State.memOf
  split
  · exact h.1
  · exact h.2

theorem memOk_putByte {s : State} (h : s.memOk) (p tier a : Nat) (b : Byte) : (s.putByte p tier a b).memOk :=
  memOk_setMem h (memory_wf_wrByte (memory_wf_memOf h tier) _ _)

theorem memOk_putBytes {s : State} (h : s.memOk) (p tier a : Nat) (bs : Bytes) : (State.putBytes p tier a bs s).memOk := by
  induction bs generalizing a s with
  | nil => exact h
  | cons b bs ih => exact ih (memOk_putByte h p tier a b) (a + 1)

theorem memOk_readLine {acc : State × ReadRes} (h : acc.1.memOk) (p tier ln : Nat) : (readLine p tier acc ln).1.memOk :=
  (sameMemory_readLine p tier acc ln).memOk h

theorem memOk_writeLine {acc : State × ReadRes} (h : acc.1.memOk) (p tier a : Nat) (bs : Bytes) (ln : Nat) :
    (writeLine p tier a bs acc ln).1.memOk := by
  have x : ∀ w : Bool, (if w then acc else readLine p tier acc ln).1.memOk := by
    intro w; cases w
    · exact memOk_readLine h p tier ln
    · exact h
  unfold writeLine
  dsimp only
  generalize (decide ((linePiece a bs ln).2.length = 64) && !acc.1.mem.stuck.contains _) = w
  specialize x w
  revert x
  generalize (if w then acc else readLine p tier acc ln) = y
  intro x
  split
  · exact x
  · exact memOk_putBytes (s := State.storeLine _ _ _) x p tier _ _

/-- Every write to a tier keeps both in canonical form. -/
theorem memOk_memWrite {s : State} (h : s.memOk) (p tier a : Nat) (bs : Bytes) : (s.memWrite p tier a bs).1.memOk := by
  have k : ∀ (l : List Nat) (acc : State × ReadRes), acc.1.memOk → (l.foldl (writeLine p tier a bs) acc).1.memOk := by
    intro l
    induction l with
    | nil => intro acc h; exact h
    | cons x l ih => intro acc h; exact ih _ (memOk_writeLine h p tier a bs x)
  unfold State.memWrite
  split
  · exact k _ _ h
  · exact h

theorem memOk_blank {s : State} (h : s.memOk) (tier lo hi : Nat) : (s.blank tier lo hi).memOk :=
  memOk_setMem h (memory_wf_clearMem (memory_wf_memOf h tier) lo hi)

theorem memOk_blankRange {s : State} (h : s.memOk) (p tier a n : Nat) : (s.blankRange p tier a n).memOk := by
  unfold State.blankRange
  generalize s.unitPieces p tier a n = l
  induction l generalizing s with
  | nil => exact h
  | cons x l ih => exact ih (memOk_blank h tier x.1 x.2)

theorem memOk_blankAll (s : State) : s.blankAll.memOk := ⟨rfl, rfl⟩

theorem memOk_zeroPiece {s : State} (h : s.memOk) (tier lo hi : Nat) : (s.zeroPiece tier lo hi).memOk :=
  memOk_blank h tier lo hi

theorem memOk_zeroRange {s : State} (h : s.memOk) (p tier a n : Nat) : (s.zeroRange p tier a n).memOk := by
  unfold State.zeroRange
  generalize s.unitPieces p tier a n = l
  induction l generalizing s with
  | nil => exact h
  | cons x l ih => exact ih (memOk_zeroPiece h tier x.1 x.2)

theorem memOk_memRead {s : State} (h : s.memOk) (p tier a n : Nat) : (s.memRead p tier a n).1.memOk :=
  (sameMemory_memRead s p tier a n).memOk h

/-- The memory after reset is in canonical form. -/
theorem reset_memOk : State.reset.memOk := ⟨rfl, rfl⟩

end Sys2Proof.Machine
end

