-- ==== Sys2Proof/Tests/Build.lean ====
section
/-! SUPPORT. Builders of the small states that the tests use. -/

namespace Sys2Proof.Tests

set_option Elab.async false

open Sys2Proof Sys2Proof.Machine

/-- The state that a command answers; reset where it answers none, which no test expects. -/
def nx (c : Instr) (s : State) : State := match exec c s with | .next t => t | _ => State.reset

/-- The command answers a next state that satisfies `p`. -/
def goes (c : Instr) (s : State) (p : State → Bool) : Bool := match exec c s with | .next t => p t | _ => false

/-- The command answers next state `t`. -/
def gives (c : Instr) (s t : State) : Bool := goes c s (· == t)

/-- The Thimble as reset leaves it, but for the masks of its slots, which no test needs. -/
def sec0 : Sec := { secInit with masks := [] }

/-- Phase RUN with every core running. -/
def up : State := { State.reset with
  pwr := { pwrInit with phase := .run }, fw := { fwInit with load := 4, manA := [], bootOk := true }, sec := sec0 }

/-- A memory key of partition 0. -/
def memSlot0 : KeySlot := ⟨true, zeros 32, 1, 2, false, true, false, 0, 2 ^ engMem, 0⟩

/-- Partition 0 holds Panels 0 and 1, GRU 0, unit 0 of tiers A and B, unit 0 of tier C, and its memory keys. -/
def cfg0 : PartCfg := ⟨1, 1, 22, [0], [0], [0]⟩

def up0 : State := { up with
  parts := [(0, { partInit with cfg := cfg0 })], sec := { sec0 with slots := [(8, memSlot0), (9, memSlot0)] } }

/-- Rings of 16 entries with their bases. -/
def rs0 : RingSet := { ringSetInit with sqLog := 4, cqLog := 4, eqLog := 4, sqBase := 0x1000, cqBase := 0x2000, eqBase := 0x3000, coN := 2, coUs := 5 }

/-- Function `f` with ACTIVE rings. -/
def ringed (f : Nat) (s : State) : State := s.setFn f { s.fn f with rings := .active, rs := rs0 }

/-- A descriptor of 64 bytes: opcode, then pieces of `n` bytes at `off` with their values. -/
def desc (opc : Nat) (l : List (Nat × Nat × Nat)) : Bytes :=
  l.foldl (fun d (e : Nat × Nat × Nat) => putAt d e.1 (leBytes e.2.1 e.2.2)) (slice (leBytes 1 opc) 0 64)

/-- Ticket 7 of function `f` waits to run. -/
def opOf (f : Nat) (d : Bytes) : Op := ⟨f, 0, d, .ring, .none, false, .ready, 0, [], 0⟩

def wait (f : Nat) (d : Bytes) (s : State) : State := { s with ops := [(7, opOf f d)], nextOp := 8 }

/-- A control command that waits to run. -/
def ctlOp (f : Nat) (d : Bytes) : Op := { opOf f d with origin := .control }

def ctl (f : Nat) (d : Bytes) (s : State) : State := { s with ops := [(7, ctlOp f d)], nextOp := 8 }

/-- A plain address word of tier A (0) or B (1). -/
def at0 (tier a : Nat) : Nat := (tier + 1) * 2 ^ 62 + a

end Sys2Proof.Tests
end

