-- ==== Sys2Proof/Tests/Packets.lean ====
section
/-! SUPPORT. Tests of packets at target and initiator: packets that open under their pair key, and states that take them. -/

namespace Sys2Proof.Tests

set_option Elab.async false

open Sys2Proof Sys2Proof.Machine

def jobKey0 : Bytes := zeros 31 ++ [9]

def remote : BitVec 128 := 7

/-- Job 9 is bound in partition 0 under slot 120, beside its memory keys; port 2 is up; the module's address is 5; peer 1 is (7, 3). -/
def fab0 : State := { ringed 1 up0 with
  sec := { sec0 with slots := [(8, memSlot0), (9, memSlot0), (120, ⟨true, jobKey0, 0, 0, false, false, false, 0, 2 ^ engPxt, 0⟩)] }
  fab := { fabInit with
    ports := [(2, ⟨true, 0⟩)], addr := [(3, 5)], jobs := [(9, ⟨0, 120, 5⟩)], peers := [(1, ⟨remote, 3, 9, false⟩)] } }

/-- The header of a packet of job 9 from (7, 3) to (5, 0). -/
def hdr0 (typ : BitVec 4) (flags code : BitVec 8) (pkt : BitVec 16) (len window queue : BitVec 32) (aux : BitVec 64) : PxtHdr :=
  ⟨1, typ, flags, 9, 0, 3, 1, code, 4, pkt, len, 77, 0, window, queue, aux⟩

def pair0 : Bytes := pairKey jobKey0 9 5 0 remote 3

def nonce0 : Bytes := pxtNonce (endpointLower remote 3 5 0) 77

/-- A packet with the ciphertext `body` and its tag. -/
def sealed (h : PxtHdr) (body : Bytes) : Packet := ⟨2, remote, 5, 0xBB1D, h, body, gcmTag pair0 nonce0 (hdrBytes h) body⟩

/-- What it opens to. -/
def plainOf (body : Bytes) : Bytes := gcmCrypt pair0 nonce0 body

theorem gcmOpen_tag (k iv aad ct : Bytes) : gcmOpen k iv aad ct (gcmTag k iv aad ct) = some (gcmCrypt k iv ct) := by
  unfold gcmOpen
  rw [if_pos rfl]

theorem opens (s : State) (typ : BitVec 4) (flags code : BitVec 8) (pkt : BitVec 16) (len window queue : BitVec 32) (aux : BitVec 64)
    (body : Bytes) (ho : s.ownAddr = 5) :
    s.openUnder (sealed (hdr0 typ flags code pkt len window queue aux) body) jobKey0 = some (plainOf body) := by
  have h9 : (9 : BitVec 16).toNat = 9 := rfl
  have h0 : (0 : BitVec 8).toNat = 0 := rfl
  have h3 : (3 : BitVec 8).toNat = 3 := rfl
  have h77 : (77 : BitVec 64).toNat = 77 := rfl
  unfold State.openUnder sealed hdr0 plainOf
  dsimp only
  rw [ho, h9, h0, h3, h77]
  exact gcmOpen_tag pair0 nonce0 _ body

theorem arrives (s : State) (n : Nat) (typ : BitVec 4) (flags code : BitVec 8) (pkt : BitVec 16) (len window queue : BitVec 32)
    (aux : BitVec 64) (body : Bytes) (hr : Reaches s n (sealed (hdr0 typ flags code pkt len window queue aux) body))
    (hj : tfind s.fab.jobs 9 = some ⟨0, 120, 5⟩) (hk : s.jobKey 9 = some jobKey0) (ho : s.ownAddr = 5)
    (hf : freshTime s.now 0 = true) :
    Arrives s n (sealed (hdr0 typ flags code pkt len window queue aux) body) (plainOf body) :=
  ⟨hr, _, _, hj, rfl, hk, opens s typ flags code pkt len window queue aux body ho, hf⟩

theorem plainOf_one : (plainOf [1]).length = 1 := by decide +kernel

/-! ## What leaves opens (R275, R276, R278) -/

theorem test_pairKeyHeld : fab0.ownAddr = 5 ∧ fab0.jobKey 9 = some jobKey0 ∧ tfind fab0.fab.jobs 9 = some ⟨0, 120, 5⟩ := by decide +kernel

/-- Both ends derive one key and one nonce (R275, R276). -/
theorem test_pairKeySymmetric (a b : BitVec 128) (h : endpointLower a 0 b 3 = true) (k : endpointLower b 3 a 0 = false) :
    pairKey jobKey0 9 a 0 b 3 = pairKey jobKey0 9 b 3 a 0 := by
  unfold pairKey
  simp only [h, k, if_true, Bool.false_eq_true, if_false]

/-! ## Packets that fail (R280, R283) -/

/-- The last packet of a SEND of 4,097 bytes: one byte. -/
def sendH : PxtHdr := hdr0 1 1 0 1 4097 0 5 0

def writeH (len window : BitVec 32) (aux : BitVec 64) : PxtHdr := hdr0 2 1 0 0 len window 0 aux

/-- Type, header and payload of one packet of each kind. -/
def kinds : List (Nat × PxtHdr × Bytes) :=
  [(1, sendH, [1]), (2, writeH 1 0x30005 8, [1]), (3, hdr0 3 0 0 0 8 0x30005 0 8, []), (4, hdr0 4 1 0 0 1 0 0 0, [1]),
    (5, hdr0 5 0 0 0 8 0 0 1, []), (6, hdr0 6 0 3 0 8 0 0 0, []), (7, hdr0 7 0 0 0 0 0 0 0, []), (8, hdr0 8 0 0 0 0 0 2 0, []),
    (9, hdr0 9 0 3 0 8 0 0 0x0000000100000002, [])]

theorem test_reaches : kinds.all (fun e => decide (Reaches fab0 e.1 (sealed e.2.1 e.2.2))) = true := by decide +kernel

theorem test_noJob : let s := { fab0 with fab := { fab0.fab with jobs := [] } }
    Reaches s 1 (sealed sendH [1]) ∧ tfind s.fab.jobs 9 = none
    ∧ goes (.pxtSendReceive (sealed sendH [1]) none) s (fun t => (repOf t).counter none cntFabNoJob == ⟨1, false⟩ && t.fab == s.fab) = true := by
  decide +kernel

/-- A packet whose tag is missing. -/
theorem test_badTag : let k := { sealed sendH [1] with tag := [] }
    Reaches fab0 1 k ∧ fab0.openUnder k jobKey0 = none ∧ tfind fab0.fab.authAt 0 = none
    ∧ goes (.pxtSendReceive k none) fab0 (fun t => (repOf t).counter (some 0) cntFabAuthFail == ⟨1, false⟩
      && tget 0 t.evSeq (srcPort 2) == 1 && t.fab.rx == [] && tfind t.fab.authAt 0 == some 0) = true := by decide +kernel

theorem test_aged : freshTime 2000000 0 = true ∧ freshTime 2000001 0 = false ∧ freshTime 0 (0xFFFFFFFF * 2 ^ 32 + 998000000) = true
    ∧ freshTime 0 (0xFFFFFFFF * 2 ^ 32 + 997999999) = false := by decide +kernel

/-- The receive entry of the message of `sendH`. -/
def rxE (gen : Nat) (st : RxState) : RxEntry := { rxNew 0 (sealed sendH [1]) with gen := gen, st := st, got := [0] }

def rxUp (gen : Nat) (st : RxState) : State := { fab0 with fab := { fab0.fab with rx := [(6, rxE gen st)], nextRx := 7 } }

theorem test_filter : let k := sealed sendH [1]
    (rxUp 1 .abandoned).rxFind k = some (6, rxE 1 .abandoned) ∧ (rxUp 1 .complete).rxFind k = some (6, rxE 1 .complete)
    ∧ (rxUp 2 .opened).rxFind k = some (6, rxE 2 .opened) ∧ seqAfter 8 1 2 = false ∧ seqAfter 8 1 255 = true
    ∧ Reaches (rxUp 2 .opened) 1 k ∧ fab0.rxFind k = none := by decide +kernel

/-! ## At the target (R285, R286, R290, R292, R295) -/

/-- Queue 5 of two buffers of 4 KiB. -/
def q5 : RxQueue := ⟨12, 2, 1, 8192, [0, 1], 0, none⟩

def tgt (w : Window) : State := { fab0 with fab := { fab0.fab with queues := [(5, q5)], windows := [(5, w)] } }

def win5 (perm : Nat) : Window := ⟨3, true, 1, 4096, 16, perm, 1, 0, 0, 0, none⟩

theorem test_sendOpens : let k := sealed sendH [1]
    let s := tgt (win5 3)
    s.rxFind k = none ∧ s.rxq 0 5 = some q5 ∧ 4097 ≤ q5.count * q5.size ∧ ceilDiv 4097 q5.size ≤ q5.free.length
    ∧ 1 < packetCount 4097 ∧ ∀ b ∈ q5.free, s.lockStatus 0 q5.tier (q5.base + b * q5.size + 4096 % q5.size) (plainOf [1]).length = stOk := by
  decide +kernel

theorem test_sendArrives : Arrives (tgt (win5 3)) 1 (sealed sendH [1]) (plainOf [1]) :=
  arrives _ 1 1 1 0 1 4097 0 5 0 [1] (by decide +kernel) (by decide +kernel) (by decide +kernel) (by decide +kernel) (by decide +kernel)

/-- A message of one byte. -/
theorem test_sendWhole : let k := sealed (hdr0 1 1 0 0 1 0 5 0) [1]
    let s := tgt (win5 3)
    Reaches s 1 k ∧ s.rxFind k = none ∧ (∀ b ∈ q5.free, s.lockStatus 0 q5.tier (q5.base + b * q5.size) (plainOf [1]).length = stOk
      ∧ s.clean 0 q5.tier (q5.base + b * q5.size) (plainOf [1]).length ∧ s.clean 0 q5.tier (q5.chain + 4 * b) 4)
    ∧ (s.fn 1).live = true ∧ (s.fn 1).heldC = [] ∧ (s.fn 1).stuck = [] ∧ (s.fn 1).waitC = []
    ∧ ringRoom (s.fn 1).rs.cqLog (s.fn 1).rs.cqProd (s.fn 1).rs.cqHead = true := by decide +kernel

/-- The last byte of the window, and one past it (R290). -/
theorem test_writeWindow : let s := tgt (win5 3)
    let k := fun aux => sealed (writeH 1 0x30005 aux) [1]
    s.windowFault (k 15) (rxNew 0 (k 15)) 1 0 (plainOf [1]).length = 0 ∧ s.windowFault (k 16) (rxNew 0 (k 16)) 1 0 (plainOf [1]).length = 5
    ∧ (tgt (win5 1)).windowFault (k 15) (rxNew 0 (k 15)) 1 0 (plainOf [1]).length = 4
    ∧ s.windowFault (sealed (writeH 1 0x20005 0) [1]) (rxNew 0 (k 0)) 1 0 (plainOf [1]).length = 2
    ∧ s.window 0 (field 0x30005 0 11) = some (win5 3) ∧ bit 3 2 = false ∧ Reaches s 2 (k 15) ∧ s.rxFind (k 15) = none
    ∧ packetCount 1 ≤ 1 := by decide +kernel

/-- A Seam window of nine ring elements of 4 bytes. -/
def seamUp : State := { tgt { win5 6 with tier := 0, base := 0, len := 36 } with
  regions := [(0, ⟨0, 64, 9, kindRing32, 1, .opened, false, 3, none, none, []⟩)] }

theorem test_writeSeam : let k := sealed (writeH 4 0x30005 32) [1, 2, 3, 4]
    seamUp.windowFault k (rxNew 0 k) 1 0 (plainOf [1, 2, 3, 4]).length = 0
    ∧ seamUp.windowFault (sealed (writeH 4 0x30005 30) [1, 2, 3, 4]) (rxNew 0 k) 1 0 4 = 6 ∧ bit 6 2 = true ∧ Reaches seamUp 2 k
    ∧ seamUp.rxFind k = none ∧ (seamUp.region 0 0).isSome = true ∧ seamUp.xfers = [] := by decide +kernel

theorem test_readReq : let k := sealed (hdr0 3 0 0 0 8 0x30005 0 8) []
    let s := tgt (win5 3)
    s.windowFault k (rxNew 0 k) 0 0 8 = 0 ∧ s.clean 0 1 (4096 + 8) 8 ∧ Reaches s 3 k ∧ s.rxFind k = none := by decide +kernel

theorem test_flushWaits : Reaches fab0 7 (sealed (hdr0 7 0 0 0 0 0 0 0) []) ∧ fab0.rxFind (sealed (hdr0 7 0 0 0 0 0 0 0) []) = none := by
  decide +kernel

theorem test_flushResp : let w : FlushWait := ⟨remote, 3, 9, 0, 4, 1, [2], 2⟩
    let s := { fab0 with fab := { fab0.fab with flushes := [(0, w)], fails := [(remote, 3, 6)] } }
    tfind s.fab.flushes 0 = some w ∧ s.outPort 2 = some 2 ∧ s.outPort 1 = some 2 ∧ (∀ x ∈ w.before, tfind s.xfers x = none)
    ∧ (s.jobKey 9).isSome = true ∧ s.failCount 0 remote 3 = 6 := by decide +kernel

/-! ## At the initiator (R282, R292 to R295) -/

/-- A message of partition 0 to (7, 3) under ID 4, generation 1. -/
def out0 (kind : MsgKind) : Msg := { plainMsg kind 0 remote 3 9 4 1 4097 0 with
  op := some 7, peer := 1, unacked := [(0, 0), (1, 0)], started := true, tier := 1, src := 8192 }

def ini (m : Msg) : State := { fab0 with
  ops := [(7, { opOf 1 (desc 0x70 [(8, 2, 1)]) with phase := .running })], fab := { fab0.fab with msgs := [(3, m)], nextMsg := 4 } }

theorem test_ack : let k := fun aux => sealed (hdr0 5 0 0 0 4097 0 0 aux) []
    let m := out0 .send
    (ini m).answered (k 1) = some (3, m) ∧ tfind (ini m).fab.msgs 3 = some m ∧ Reaches (ini m) 5 (k 1)
    ∧ m.unacked.filter (fun u => !ackNames (k 1).hdr u.1) = [(1, 0)] ∧ m.unacked.filter (fun u => !ackNames (k 3).hdr u.1) = []
    ∧ (ini m).noUnbind 9 := by decide +kernel

theorem test_ackArrives : Arrives (ini (out0 .send)) 5 (sealed (hdr0 5 0 0 0 4097 0 0 3) []) (plainOf []) :=
  arrives _ 5 5 0 0 0 4097 0 0 3 [] (by decide +kernel) (by decide +kernel) (by decide +kernel) (by decide +kernel) (by decide +kernel)

theorem test_nack : let k := fun code => sealed (hdr0 6 0 code 0 4097 0 0 0) []
    let m := out0 .write
    (ini m).answered (k 2) = some (3, m) ∧ (ini m).answered (k 5) = some (3, m) ∧ Reaches (ini m) 6 (k 1) ∧ m.rnrWait = false
    ∧ m.kind ≠ .readResp := by decide +kernel

/-- While a message waits after a NACK it heeds neither ACK nor NACK (R282). -/
theorem test_rnrHeedsNothing : let ack := sealed (hdr0 5 0 0 0 4097 0 0 3) []
    let nack := sealed (hdr0 6 0 3 0 4097 0 0 0) []
    let m := { out0 .send with rnrWait := true }
    (ini m).answered ack = some (3, m) ∧ (ini m).answered nack = some (3, m) ∧ Reaches (ini m) 6 nack
    ∧ goes (.pxtAckReceive ack) (ini m) (fun t => t.fab == (ini m).fab && t.ops == (ini m).ops) = true
    ∧ goes (.pxtNackReceive nack) (ini m) (fun t => t.fab == (ini m).fab && t.ops == (ini m).ops) = true := by decide +kernel

/-- The last packet of a response of 4,097 bytes, and a response of one byte. -/
theorem test_readResp : let k := sealed (hdr0 4 1 0 1 4097 0 0 0) [1]
    let m := { out0 .readReq with unacked := [] }
    let s := ini m
    s.rxFind k = none ∧ s.ownMsg k .readReq = some (3, m) ∧ Reaches s 4 k ∧ m.code = 0 ∧ 1 < packetCount m.len ∧ packetCount 1 = 1
    ∧ s.lockStatus 0 1 (8192 + 4096) (plainOf [1]).length = stOk ∧ s.clean 0 1 (8192 + 4096) (plainOf [1]).length
    ∧ (ini { m with len := 1 }).ownMsg (sealed (hdr0 4 1 0 0 1 0 0 0) [1]) .readReq = some (3, { m with len := 1 }) := by decide +kernel

theorem test_flushAnswered : let k := fun n => sealed (hdr0 8 0 0 0 0 0 n 0) []
    let m := out0 .flush
    (ini m).ownMsg (k 0) .flush = some (3, m) ∧ (ini m).ownMsg (k 2) .flush = some (3, m) ∧ Reaches (ini m) 8 (k 2)
    ∧ (ini m).peer 0 m.peer = some ⟨remote, 3, 9, false⟩ := by decide +kernel

end Sys2Proof.Tests
end

