-- ==== Sys2Proof/Tests/Fabric.lean ====
section
/-! SUPPORT. Tests of the fabric descriptors, transmission, timers and ports. -/

namespace Sys2Proof.Tests

set_option Elab.async false

open Sys2Proof Sys2Proof.Machine

/-! ## Transfers and FAB_CANCEL (R281, R284, R293, R295, R299, R300) -/

def sendD : Bytes := desc 0x70 [(4, 4, 0x55), (8, 2, 1), (12, 1, 5), (16, 8, at0 1 64), (24, 4, 4097)]
def writeD : Bytes := desc 0x71 [(8, 2, 1), (12, 4, 0x30005), (16, 8, at0 1 64), (24, 4, 4096), (32, 8, 8)]
def readD : Bytes := desc 0x72 [(8, 2, 1), (12, 4, 0x30005), (16, 8, at0 0 (2 ^ 30 - 16)), (24, 4, 16)]
def flushD : Bytes := desc 0x73 [(8, 2, 1)]

theorem test_transfers : let w := fun d => wait 1 d fab0
    (∀ d ∈ [sendD, writeD, readD, flushD], Waits (w d) (byteAt d 0) 7 (opOf 1 d) ∧ (w d).transferStatus 0 d = stOk
      ∧ (w d).peer 0 1 = some ⟨remote, 3, 9, false⟩ ∧ (w d).fab.msgs.length < 65536 ∧ (w d).pickId 0 = some 0)
    ∧ (w flushD).peerBusy 7 (opOf 1 flushD) = false
    ∧ (w sendD).transferStatus 0 (putAt sendD 24 [0, 0]) = stFabLength ∧ fab0.spaceBad 1 readD = false ∧ fab0.spaceBad 1 (putAt readD 24 [17]) = true
    ∧ (w sendD).transferStatus 0 (putAt sendD 8 [2]) = stFabPeer := by decide +kernel

theorem test_transferStarts : goes (.fabSend 7) (wait 1 sendD fab0) (fun t => (match tfind t.fab.msgs 0 with
      | some m => m.kind == .send && m.unsent == [0, 1] && m.gen == 1 && m.dst == remote && m.job == 9 && m.src == 64
      | none => false) && (t.op 7).map (·.phase) == some .running) = true
    ∧ goes (.fabWrite 7) (wait 1 writeD fab0) (fun t => (tfind t.fab.msgs 0).map (fun m => (m.unsent, m.window, m.aux)) == some ([0], 0x30005, 8)) = true
    ∧ goes (.fabRead 7) (wait 1 readD fab0) (fun t => (tfind t.fab.msgs 0).map (fun m => (m.kind, m.len)) == some (.readReq, 16)) = true
    ∧ goes (.fabFlush 7) (wait 1 flushD fab0) (fun t => (tfind t.fab.msgs 0).map (·.kind) == some .flush) = true := by decide +kernel

def cancelD : Bytes := desc 0x74 [(16, 4, 0x55)]

/-- A transfer of TAG 0x55 under ticket 3, and its cancel under ticket 7. -/
def canUp (started : Bool) : State :=
  let m : Msg := { plainMsg .send 0 remote 3 9 0 1 4097 0 with op := some 3, unsent := [0, 1], started := started }
  { fab0 with
    ops := [(3, { opOf 1 sendD with phase := .running }), (7, opOf 1 cancelD)]
    fab := { fab0.fab with msgs := [(2, m)], nextMsg := 3 } }

theorem test_cancel : Waits (canUp false) 0x74 7 (opOf 1 cancelD) ∧ (canUp false).cancelOps 7 1 0x55 = [3]
    ∧ (canUp false).cancelArmed 1 0x55 = none ∧ (canUp false).noUnbind 9
    ∧ (canUp false).fab.msgs.find? (fun e => e.2.op == some 3) = (canUp false).fab.msgs.head?
    ∧ goes (.fabCancel 7) (canUp false) (fun t => t.op 7 == none && t.op 3 == none && t.fab.msgs == []) = true
    ∧ goes (.fabCancel 7) (canUp true) (fun t => t == (canUp true).finish 7 stFabTooLate) = true
    ∧ goes (.fabCancel 7) (wait 1 cancelD fab0) (fun t => t == (wait 1 cancelD fab0).finish 7 stFabNotFound) = true := by decide +kernel

/-- A stored FAB_SEND of TAG 0x55, armed. -/
def armUp : State := { wait 1 cancelD fab0 with
  tierB := [(64, 0x70), (68, 0x55)], fab := { fab0.fab with armed := [⟨0, 4, 9, 1, 64, 2⟩] } }

theorem test_cancelArmed : armUp.cancelOps 7 1 0x55 = [] ∧ armUp.cancelArmed 1 0x55 = some ⟨0, 4, 9, 1, 64, 2⟩
    ∧ goes (.fabCancel 7) armUp (fun t => t.op 7 == none && t.fab.armed == [] && t.tierB == armUp.tierB) = true := by decide +kernel

/-- A stored FAB_SEND of TAG 0x55 that has fired and waits. -/
theorem test_cancelFired : let x : Fetched := ⟨0, desc 0x70 [(4, 4, 0x55)], .trigger, stOk⟩
    let s := (wait 1 cancelD fab0).setFn 1 { fab0.fn 1 with fetched := [x] }
    Waits s 0x74 7 (opOf 1 cancelD) ∧ s.cancelOps 7 1 0x55 = [] ∧ s.cancelFired 1 0x55 = some x ∧ le x.bytes 10 2 = 0
    ∧ goes (.fabCancel 7) s (fun t => t.op 7 == none && (t.fn 1).fetched == [] && t.tierB == s.tierB) = true := by decide +kernel

/-! ## Trigger counters (R297, R298) -/

def cntD (op v : Nat) : Bytes := desc 0x76 [(8, 2, 1023), (10, 1, op), (12, 4, v)]

/-- The counter wraps; what it reaches by serial arithmetic fires. -/
theorem test_counter : let s := fun d => { wait 1 d fab0 with fab := { fab0.fab with
      trig := [(1023, 0xFFFFFFFF)], armed := [⟨0, 1023, 4, 1, 64, 2⟩, ⟨0, 1023, 6, 1, 64, 3⟩] } }
    Waits (s (cntD 0 5)) 0x76 7 (opOf 1 (cntD 0 5)) ∧ zeroAt (cntD 1 6) 16 48 = true
    ∧ goes (.fabCounterSet 7) (s (cntD 0 5)) (fun t => t.trigger 0 1023 == 5 && t.fab.armed.map (·.seq) == [3]
      && (t.fn 1).fetched.length == 1) = true
    ∧ goes (.fabCounterAdd 7) (s (cntD 1 6)) (fun t => t.trigger 0 1023 == 5 && t.fab.armed.map (·.seq) == [3]) = true := by decide +kernel

def armD (thr : Nat) : Bytes := desc 0x75 [(8, 2, 4), (12, 4, thr), (16, 8, at0 1 64)]

theorem test_arm : let s := fun thr => { wait 1 (armD thr) fab0 with tierB := [(64, 1)], fab := { fab0.fab with trig := [(4, 7)] } }
    Waits (s 8) 0x75 7 (opOf 1 (armD 8)) ∧ (addrAt (armD 8) 16).plain = true ∧ (s 8).inUnits 0 1 64 64 = true
    ∧ (s 8).lockStatus 0 1 64 64 = stOk ∧ reached ((s 8).trigger 0 4) 8 = false ∧ reached ((s 7).trigger 0 4) 7 = true
    ∧ goes (.fabTriggerArm 7) (s 8) (fun t => t.fab.armed == [⟨0, 4, 8, 1, 64, 7⟩] && t.op 7 == none) = true
    ∧ goes (.fabTriggerArm 7) (s 7) (fun t => t.fab.armed == [] && (t.fn 1).fetched.map (·.bytes.headD 0) == [1]) = true := by
  decide +kernel

/-! ## Peers and jobs (R274, R276) -/

def peerD (op : Nat) : Bytes := putAt (desc 0x7A [(8, 2, 4095), (10, 1, 31), (12, 2, 9), (32, 1, op)]) 16 (zeros 15 ++ [7])

theorem test_peer : Waits (wait 1 (peerD 0) fab0) 0x7A 7 (opOf 1 (peerD 0)) ∧ peerFields (peerD 0) = true ∧ peerFields (peerD 1) = true
    ∧ goes (.fabPeerSet 7) (wait 1 (peerD 0) fab0) (fun t => t.peer 0 4095 == some ⟨7, 31, 9, false⟩ && t.fab.peers.length == 2) = true
    ∧ goes (.fabPeerClear 7) { wait 1 (peerD 1) fab0 with fab := { fab0.fab with peers := [(4095, ⟨7, 31, 9, true⟩)] } }
      (fun t => t.fab.peers == []) = true := by decide +kernel

def jobD (job slot op : Nat) : Bytes := desc 0x7B [(8, 2, job), (10, 1, slot), (11, 1, op)]

theorem test_job : let s := fun d => wait 1 d fab0
    Waits (s (jobD 8 120 0)) 0x7B 7 (opOf 1 (jobD 8 120 0)) ∧ jobFields (jobD 8 120 0) = true ∧ (fab0.slot 120).usable engPxt 0 = true
    ∧ (fab0.slot 121).usable engPxt 0 = false ∧ tfind fab0.fab.jobSeqs 8 = none ∧ tfind fab0.fab.jobs 8 = none
    ∧ goes (.fabJobBind 7) (s (jobD 8 120 0)) (fun t => tfind t.fab.jobs 8 == some ⟨0, 120, 1⟩ && t.op 7 == none) = true
    ∧ goes (.fabJobBind 7) (s (jobD 8 121 0)) (fun t => t == (s (jobD 8 121 0)).finish 7 stFabNoKey) = true
    ∧ tfind fab0.fab.jobs 9 = some ⟨0, 120, 5⟩ ∧ fab0.noUnbind 9 ∧ bit (byteAt (jobD 9 0 1) 11) 0 = true := by decide +kernel

theorem test_jobUnbind : let m : Msg := plainMsg .send 0 remote 3 9 0 1 1 0
    let s := { wait 1 (jobD 9 0 1) fab0 with fab := { fab0.fab with msgs := [(2, m)] } }
    (∃ m ∈ s.fab.msgs, m.2.job = 9)
    ∧ goes (.fabJobUnbind 7) s (fun t => tfind t.fab.jobs 9 == some ⟨0, 120, 5⟩ && (t.op 7).map (·.phase) == some .running) = true
    ∧ goes (.fabJobUnbind 7) (wait 1 (jobD 9 0 1) fab0) (fun t => tfind t.fab.jobs 9 == none && t.op 7 == none) = true := by
  refine ⟨⟨_, List.mem_singleton.mpr rfl, rfl⟩, by decide +kernel, by decide +kernel⟩

/-- A message that still arrives, or a FLUSH not answered, holds the unbinding (R300, notes/assumptions/88.md). -/
theorem test_jobUnbindWaits : let s := wait 1 (jobD 9 0 1) fab0
    let rx := { s with fab := { s.fab with rx := [(0, rxE 1 .opened)] } }
    let fl := { s with fab := { s.fab with flushes := [(0, ⟨remote, 3, 9, 0, 4, 1, [], 2⟩)] } }
    (rxE 1 .opened).job = 9
    ∧ goes (.fabJobUnbind 7) rx (fun t => tfind t.fab.jobs 9 == some ⟨0, 120, 5⟩ && (t.op 7).map (·.phase) == some .running) = true
    ∧ goes (.fabJobUnbind 7) fl (fun t => tfind t.fab.jobs 9 == some ⟨0, 120, 5⟩ && (t.op 7).map (·.phase) == some .running) = true := by
  decide +kernel

/-! ## Windows and queues (R285, R288, R291) -/

def winD (op : Nat) : Bytes :=
  desc 0x78 [(8, 2, 2047), (10, 1, op), (11, 1, 3), (12, 2, 0xFFFF), (14, 2, 1024), (16, 8, at0 1 64), (24, 8, 16)]

theorem test_window : let s := wait 1 (winD 0) fab0
    Waits s 0x78 7 (opOf 1 (winD 0)) ∧ windowFields (winD 0) = true ∧ s.windowStatus 0 (winD 0) = stOk
    ∧ goes (.fabWindowCreate 7) s (fun t => t.window 0 2047 == some ⟨1, true, 1, 64, 16, 3, 0xFFFF, 1024, 0, 0, none⟩ && t.op 7 == none) = true
    ∧ goes (.fabWindowCreate 7) { s with fab := { s.fab with windows := [(2047, { win5 0 with wgen := 0xFFFF, live := false })] } }
      (fun t => (t.window 0 2047).map (·.wgen) == some 0) = true := by decide +kernel

theorem test_revoke : let s := { wait 1 (winD 1) fab0 with fab := { fab0.fab with windows := [(2047, win5 3)] } }
    let busy := { s with fab := { s.fab with rx := [(0, { rxE 1 .opened with typ := pxtWrite, window := 2047 })] } }
    Waits s 0x78 7 (opOf 1 (winD 1)) ∧ windowFields (winD 1) = true ∧ s.window 0 2047 = some (win5 3) ∧ s.windowQuiet 0 2047 = true
    ∧ busy.windowQuiet 0 2047 = false
    ∧ goes (.fabWindowRevoke 7) s (fun t => t.op 7 == none && t.window 0 2047 == some { win5 3 with live := false }) = true
    ∧ goes (.fabWindowRevoke 7) busy (fun t => (t.op 7).map (·.phase) == some .running
      && t.window 0 2047 == some { win5 3 with live := false, revoke := some 7 }) = true := by decide +kernel

def rqD (mode n : Nat) : Bytes := desc 0x79 [(8, 1, 5), (9, 1, mode), (10, 1, if mode = 0 then 12 else 0), (12, 4, n), (16, 8, if mode = 0 then at0 1 8192 else 0)]

theorem test_rqCreate : let s := wait 1 (rqD 0 2) fab0
    Waits s 0x79 7 (opOf 1 (rqD 0 2)) ∧ s.rqStatus 0 (rqD 0 2) = stOk
    ∧ goes (.fabRqCreate 7) s (fun t => t.rxq 0 5 == some q5 && t.op 7 == none) = true := by decide +kernel

/-- The chain of buffers 1 and 0 goes back; buffer 2 was free. -/
theorem test_rqReturn : let q : RxQueue := { q5 with count := 3, free := [2] }
    let s := { wait 1 (rqD 1 1) fab0 with
      tierB := wrBytes (q.chain + 4) (leBytes 4 0) (wrBytes q.chain (leBytes 4 0xFFFFFFFF) []), fab := { fab0.fab with queues := [(5, q)] } }
    Waits s 0x79 7 (opOf 1 (rqD 1 1)) ∧ rqFields (rqD 1 1) = true ∧ s.chainOf 0 q 3 1 = [1, 0]
    ∧ goes (.fabRqReturn 7) s (fun t => (t.rxq 0 5).map (·.free) == some [2, 1, 0] && t.op 7 == none) = true := by decide +kernel

theorem test_rqDelete : let s := { wait 1 (rqD 2 0) fab0 with fab := { fab0.fab with queues := [(5, q5)] } }
    Waits s 0x79 7 (opOf 1 (rqD 2 0)) ∧ rqFields (rqD 2 0) = true ∧ zeroAt (rqD 2 0) 12 4 = true
    ∧ goes (.fabRqDelete 7) s (fun t => t.rxq 0 5 == none && t.op 7 == none) = true
    ∧ goes (.fabRqDelete 7) { s with fab := { s.fab with rx := [(0, rxE 1 .opened)] } } (fun t => t.rxq 0 5 == some { q5 with delOp := some 7 }
      && (t.op 7).map (·.phase) == some .running) = true := by decide +kernel

/-! ## Transmission (R277, R281, R296) -/

def txMsg : Msg := { plainMsg .send 0 remote 3 9 4 1 4097 0 with op := some 7, unsent := [1], tier := 1, src := 64 }

def txUp (keyed : Bool) : State := { fab0 with
  ops := [(7, { opOf 1 sendD with phase := .running })]
  sec := if keyed then fab0.sec else sec0
  fab := { fab0.fab with msgs := [(3, txMsg)], nextMsg := 4 } }

/-- The first context of the peer's set, started afresh. -/
theorem ctxFor_fresh : ∃ c s1, (txUp true).ctxFor remote 3 = some (c, s1)
    ∧ ∀ x, tfind s1.fab.ctxs c = some x → x.flight < x.cwnd := by
  refine ⟨_, _, rfl, fun x hx => ?_⟩
  rw [tfind_tset_same] at hx
  cases hx
  decide

theorem test_transmit : tfind (txUp true).fab.msgs 3 = some txMsg ∧ txMsg.unsent = [1] ∧ (tget portInit (txUp true).fab.ports 2).up = true
    ∧ (txUp true).jobKey 9 = some jobKey0 ∧ (txUp true).clean 0 1 (64 + 4096) (txMsg.bytesOf 1) ∧ (txUp false).jobKey 9 = none
    ∧ (txUp false).noUnbind 9
    ∧ goes (.pxtTransmit 3 2) (txUp false) (fun t => t.fab.msgs == [] && t.op 7 == none) = true := by decide +kernel

/-- A key set registered meanwhile lies over the source: no byte leaves (notes/assumptions/67.md). -/
theorem test_transmitLocked : let s := { txUp true with keysets := [(0, ⟨0, 1, 4096, 4096⟩)] }
    s.sourceLock txMsg (64 + 4096) (txMsg.bytesOf 1) = stGruLocked ∧ stGruLocked ≠ stOk ∧ s.noUnbind 9
    ∧ tfind s.fab.msgs 3 = some txMsg ∧ s.jobKey 9 = some jobKey0 := by decide +kernel

/-! ## Timers (R281, R282, R291, R294, R301) -/

def retxUp : State := { txUp true with fab := { fab0.fab with
  msgs := [(3, { txMsg with unsent := [], unacked := [(1, 500), (0, 400)], ctx := some 6, started := true })]
  ctxs := [(6, ⟨remote, 3, 10, 100000, 9000, 4097, 0, 0⟩)] } }

theorem test_retransmit : goes (.pxtRetransmitTimeout 3 1) retxUp (fun t => t.now == 500 + 400000
      && (tfind t.fab.msgs 3).map (fun m => (m.unsent, m.unacked)) == some ([1], [(0, 400)])
      && (tfind t.fab.ctxs 6).map (fun c => (c.cwnd, c.flight)) == some (4500, 4096)) = true := by decide +kernel

theorem test_rnrResend : let m : Msg := { txMsg with unsent := [], rnrWait := true, rnrUs := 40, last := 1000, gen := 255 }
    goes (.pxtRnrResend 3) { txUp true with fab := { fab0.fab with msgs := [(3, m)] } } (fun t => t.now == 41000
      && (tfind t.fab.msgs 3).map (fun m => (m.gen, m.rnrWait, m.unsent)) == some (0, false, [0, 1])) = true := by decide +kernel

theorem test_timeouts : let m : Msg := { txMsg with started := true, last := 7 }
    let s := { txUp true with fab := { fab0.fab with msgs := [(3, m)] } }
    let d := { s with fab := { s.fab with ports := [], downAt := 9 } }
    s.noUnbind m.job ∧ d.anyUp = false
    ∧ goes (.pxtMessageTimeout 3) s (fun t => t.fab.msgs == [] && t.op 7 == none && t.now == 100000007) = true
    ∧ goes (.portsDownTimeout 3) d (fun t => t.fab.msgs == [] && t.op 7 == none && t.now == 100000009) = true := by decide +kernel

theorem test_entryEnds : let s := { rxUp 1 .complete with fab := { (rxUp 1 .complete).fab with rx := [(6, { rxE 1 .complete with expire := 4000000 })] } }
    goes (.receiveEntryExpiry 6) s (fun t => t.fab.rx == [] && t.now == 4000000) = true := by decide +kernel

theorem test_windowIdle : let e : RxEntry := { rxE 1 .opened with typ := pxtWrite, last := 5 }
    let s := { rxUp 1 .opened with fab := { (rxUp 1 .opened).fab with rx := [(6, e)] } }
    e.whole = false ∧ goes (.windowIdleTimeout 6) s (fun t => (tfind t.fab.rx 6).map (·.st) == some .abandoned && t.now == 100000005) = true := by
  decide +kernel

theorem test_ackTimer : ackGroups 3 [2, 5, 66] = [(2, 9), (66, 1)] ∧ (rxUp 1 .opened).outPort 2 = some 2
    ∧ goes (.pxtAckTimer 6) (rxUp 1 .opened) (fun t => (tfind t.fab.rx 6).map (·.ack) == some []) = true := by decide +kernel

/-- The last byte of a message fails after it was accepted (R294). -/
theorem test_placementFailure : let s := rxUp 1 .complete
    (rxE 1 .complete).typ = pxtSend ∧ 4096 + 1 ≤ (rxE 1 .complete).len
    ∧ goes (.placementFailure 6 4096 1) s (fun t => t.failCount 0 remote 3 == 1
      && (tfind t.fab.msgs 0).map (fun m => (m.kind, m.code, m.aux)) == some (.error, 3, 4096 * 2 ^ 32 + 1)) = true := by decide +kernel

/-! ## Ports (R302, R303) -/

theorem test_ports : goes (.fabPortDown 2) { fab0 with now := 50 } (fun t => tget portInit t.fab.ports 2 == ⟨false, 1⟩ && t.fab.downAt == 50
      && tget 0 t.evSeq (srcPort 2) == 1 && goes (.fabPortUp 2) t (fun u => tget portInit u.fab.ports 2 == ⟨true, 1⟩)) = true
    ∧ goes (.fabPortDown 7) { fab0 with fab := { fab0.fab with ports := [(7, ⟨true, 0xFFFF⟩)] } } (fun t => tget portInit t.fab.ports 7 == ⟨false, 0xFFFF⟩) = true
    ∧ (tget portInit fab0.fab.ports 0).up = false := by decide +kernel

end Sys2Proof.Tests
end

