-- ==== Sys2Proof/Tests/Firmware.lean ====
section
/-! SUPPORT. Tests of firmware loading, staging and activation, core faults and crash dumps. -/

namespace Sys2Proof.Tests

set_option Elab.async false

open Sys2Proof Sys2Proof.Machine

/-! ## Loading (R358 to R360) -/

/-- SHA-384 of no bytes (FIPS 180-4). -/
def shaEmpty : Bytes := beBytes 48
  0x38b060a751ac96384cd9327eb1b1e36a21fdb71114be07434c0cc7bf63f6e1da274edebfe76f65fbd51ad2f14898b95b

/-- Entry `i` of a part of no bytes. -/
def emptyPart (i tag : Nat) : Bytes :=
  leBytes 2 (i + 1) ++ zeros 6 ++ leBytes 8 0 ++ zeros 12 ++ zeros 4 ++ leBytes 16 tag ++ shaEmpty ++ leBytes 8 1056 ++ zeros 24

/-- A manifest whose four load parts hold no bytes. -/
def man0 : Bytes := [1, 7, 2, 0] ++ leBytes 4 9 ++ zeros 8 ++ leBytes 8 1056 ++ zeros 40
  ++ emptyPart 0 0 ++ emptyPart 1 0 ++ emptyPart 2 0 ++ emptyPart 3 3181823559422746218623184284401432674
  ++ emptyPart 4 204069071581620788319697634941326718359 ++ emptyPart 5 71289446485859307610274375665005650507
  ++ emptyPart 6 231635241082275829656750630387549466558 ++ zeros 96

def fwUp (load : Nat) : State := { up0 with
  fw := { fwInit with load := load, manA := man0 }
  sec := { sec0 with slots := [(1, ⟨true, zeros 32, 0, 0, false, false, false, 0, 2 ^ engUpd, 0⟩)] } }

theorem test_loadWait : goes .loadWaitTimeout (fwUp 1) (fun t => t.fw.load == 2 && t.now == 30000000000
      && tget 0 t.evSeq srcThimble == 1) = true
    ∧ goes .fwMboxGo (fwUp 2) (fun t => t.fw.offered && t.fw.load == 2) = true := by decide +kernel

/-- The bundle of the booted manifest: load parts of no bytes verify. -/
theorem test_bundleVerifies : slice man0 0 manifestBytes = (fwUp 2).fw.manifest
    ∧ (fwUp 2).bundleOk (fwUp 2).fw.manifest man0 [3, 4, 5, 6] = true := by decide +kernel

theorem test_bundleParts : (fwUp 2).bundleOk man0 man0 [2] = false := by decide +kernel

theorem test_loads (h : (fwUp 2).bundleOk man0 man0 [3, 4, 5, 6] = true) :
    exec (.mgmtImageTransferDone man0) (fwUp 2) = .next { fwUp 2 with fw := { (fwUp 2).fw with load := 3, offered := false } } := by
  have hm : slice man0 0 manifestBytes = (fwUp 2).fw.manifest := by decide +kernel
  show execMgmtImageTransferDone man0 (fwUp 2) = _
  unfold execMgmtImageTransferDone
  have hw : (fwUp 2).loadWaits = true := rfl
  rw [if_pos hw]
  unfold State.takeBundle
  dsimp only
  rw [if_pos hm, hm, if_pos (show (fwUp 2).bundleOk (fwUp 2).fw.manifest man0 [3, 4, 5, 6] = true from h)]
  rfl

theorem test_offered : (fwUp 2).fw.offered = false ∧ slice (zeros 1056) 0 manifestBytes ≠ (fwUp 2).fw.manifest
    ∧ (fwUp 2).manStatus (zeros 1056) = stFwField ∧ stFwField ≠ stOk
    ∧ goes (.mgmtImageTransferDone (zeros 1056)) (fwUp 1) (fun t => t.fw.load == 1 && tget 0 t.evSeq srcThimble == 1) = true
    ∧ gives (.mailboxBundleReadDone man0) (fwUp 2) (fwUp 2) = true := by decide +kernel

/-! ## Staging (R361, R362) -/

def stageD (flags off n : Nat) : Bytes := desc 0x93 [(8, 1, flags), (16, 8, 0x9000), (24, 8, off), (32, 4, n)]

def stUp (s : State) : State := { ringed 0 s with flc := { flashInit with st := 2, budget := 1 } }

theorem test_stage : let d := stageD 0 131072 65536
    let s := wait 0 d (stUp (fwUp 4))
    Waits s 0x93 7 (opOf 0 d) ∧ s.flashReady = true ∧ stageFieldOk d (s.fw.bound d) = true ∧ s.stageState d = stOk ∧ s.reachable 0 = true := by
  decide +kernel

theorem test_stageLast : let d := stageD 0 65536 3
    let s := wait 0 d (stUp (fwUp 4))
    Waits s 0x93 7 (opOf 0 d) ∧ stageFieldOk d (s.fw.bound d) = true ∧ stageFieldOk d (some 65539) = true
    ∧ stageFieldOk d (some 65540) = false
    ∧ goes (.fwStage 7 [1, 2, 3, 4]) s (fun t => t.op 7 == some { opOf 0 d with phase := .running } && t.fw.slotB == 1
      && tfind t.flc.extents 0 == some ⟨some 7, none, true, 3, false, [⟨.piece 0 65536 1, .bytes [1, 2, 3], []⟩], 0⟩) = true := by decide +kernel

/-- A first piece that is no manifest. -/
theorem test_stageFirst : let d := stageD 1 0 1056
    let s := wait 0 d (stUp (fwUp 4))
    Waits s 0x93 7 (opOf 0 d) ∧ stageFieldOk d (s.fw.bound d) = true ∧ s.stageState d = stOk
    ∧ s.manStatus (slice (slice [] 0 1056) 0 manifestBytes) = stFwField
    ∧ goes (.fwStage 7 []) s (fun t => t.op 7 == none && t.fw.slotB == 0 && t.fw.manB == [] && t.fw.refused) = true := by
  decide +kernel

/-- The last page of the first piece of slot B, of three bytes. -/
def piecePage : StagedPage := ⟨.piece 0 0 1, .bytes [7, 0, 9], []⟩

def pieceExt : Extent := ⟨none, none, true, 3, true, [piecePage], 0⟩

/-- Staging under way; the dies outside parity group 0 take no writes. -/
def pieceUp (manB : Bytes) : State :=
  let s := stUp (fwUp 4)
  { s with
    fw := { s.fw with slotB := 1, manB := manB }
    flc := { s.flc with
      extents := [(0, pieceExt)], dies := ((List.range 64).filter (fun d => d % 4 != 0)).map (fun d => (d, ⟨9, true, false⟩)) } }

theorem test_pieceDone : tfind (pieceUp []).flc.extents 0 = some pieceExt ∧ (pieceUp []).pageBehind 0 pieceExt = false
    ∧ ((pieceUp []).pagePlace piecePage).isSome = true ∧ (pieceUp []).fw.stageNo = 0
    ∧ ((pieceUp []).storePart 0 0 1 [7, 0, 9]).fw.complete = false ∧ ((pieceUp man0).storePart 0 0 1 [7, 0, 9]).fw.complete = true
    ∧ goes (.flashProgramDone 0 .ok) (pieceUp []) (fun t => t.fw.pieces == [0] && t.fw.bytesB == [(0, 7), (2, 9)]
      && t.flc.extents == [] && t.fw.slotB == 1) = true := by decide +kernel

/-! ## Activation (R363, R365, R366) -/

def actD (ns : Nat) : Bytes := desc 0x94 [(22, 4, ns)]

theorem test_activate : let d := actD 20000000
    let s := wait 0 d { stUp (fwUp 4) with fw := { (fwUp 4).fw with slotB := 2 } }
    Waits s 0x94 7 (opOf 0 d) ∧ s.activateStatus (opOf 0 d) = stOk
    ∧ s.activateStatus (opOf 0 (actD 9999999)) = stMrdMarkPast
    ∧ goes (.fwActivate 7) s (fun t => t.op 7 == none && t.freeMarks + 4 == s.freeMarks
      && t.mrd.marks.map (fun e => (e.2.action, e.2.fallback, e.2.time, e.2.st)) ==
        [(9, true, 600020000000, .set), (9, true, 600021000000, .reserved), (9, false, 20000000, .set), (9, false, 21000000, .reserved)]) = true := by
  decide +kernel

theorem test_confirm : let s := { fwUp 4 with fw := { (fwUp 4).fw with image := 1, slotB := 3, manB := man0 } }
    manVersion s.fw.manB = 9 ∧ s.fallbackMark = none
    ∧ goes (.fwConfirmWrite 8) s (fun t => t.fw.image == 1 && (repOf t).counter none cntFwBadConfirm == ⟨1, false⟩) = true
    ∧ goes (.fwConfirmWrite 9) (fwUp 4) (fun t => (repOf t).counter none cntFwBadConfirm == ⟨1, false⟩) = true
    ∧ goes (.fwConfirmWrite 9) s (fun t => t.fw.image == 2 && t.fw.floor == 2
      && goes .slotCopyDone t (fun u => u.fw.image == 0 && u.fw.slotB == 0 && u.fw.manB == [] && tget 0 u.evSeq srcThimble == 1)) = true := by
  decide +kernel

theorem test_confirmFallback : let m : Mark := { plainMark 600000000000 9 0xFF 0 0 with fallback := true }
    let s := fun (st : MarkSt) => { fwUp 4 with
      fw := { (fwUp 4).fw with image := 1, slotB := 3, manB := man0 }
      mrd := { mrdInit with marks := [(2, { m with st := st })] } }
    (s .set).fallbackMark = some (2, { m with st := .set })
    ∧ goes (.fwConfirmWrite 9) (s .set) (fun t => t.fw.image == 2 && t.mark 2 == none) = true
    ∧ goes (.fwConfirmWrite 9) (s .arming) (fun t => t.fw.image == 1 && (t.mark 2).isSome) = true := by decide +kernel

/-! ## Crash dumps, core faults (R26, R367 to R369) -/

def dump1 : Dump := ⟨1, 65, 0, 0, zeros 48⟩

theorem test_dumpRead : let d := desc 0x95 [(8, 1, 1), (16, 8, 0x9000), (24, 8, 0), (32, 4, 16)]
    let s := wait 0 d { stUp (fwUp 4) with fw := { (fwUp 4).fw with dump := some dump1 } }
    Waits s 0x95 7 (opOf 0 d) ∧ dumpFieldOk d = true ∧ bit (byteAt d 8) 1 = false ∧ s.reachable 0 = true
    ∧ goes (.fwDumpRead 7) s (fun t => t.op 7 == none && t.fw.dump == none) = true := by decide +kernel

/-- The header of a dump: form, cause, core (R369). -/
theorem test_dumpHeader : ((List.range 4).map dump1.byte) = [1, 1, 65, 0] := by
  simp [Dump.byte, dump1, List.range, List.range.loop, leBytes]

theorem test_dumpCapture : let d := desc 0x95 [(8, 1, 2)]
    let s := wait 0 d (stUp (fwUp 4))
    Waits s 0x95 7 (opOf 0 d) ∧ dumpFieldOk d = true ∧ bit (byteAt d 8) 1 = true ∧ s.fw.capture = none
    ∧ goes (.fwDumpCapture 7) s (fun t => t.fw.capture == some (3, 0xFFFF, some 7)) = true := by decide +kernel

theorem test_captureDone : let s := fun (due : Bool) (old : Option Dump) => { stUp (fwUp 4) with
      fw := { (fwUp 4).fw with capture := some (1, 65, none), resetDue := due, dump := old } }
    goes .crashDumpCaptureDone (s false (some dump1)) (fun t => t.fw.capture == none && t.fw.dump == some dump1
      && tget 0 t.evSeq srcThimble == 1 && (repOf t).counter none cntFwDumpLost == ⟨1, false⟩) = true
    ∧ goes .crashDumpCaptureDone (s true (some dump1)) (fun t => t.fw.capture == none && !t.fw.resetDue && t.pwr.phase == .holdup
      && t.pwr.selfRst) = true := by decide +kernel

theorem test_coreFaults : gives (.coreFault 64 .corrected) up up = true ∧ gives (.watchdogExpiry 67 .transient) up (up.countError none cntTransient) = true
    ∧ goes (.coreFault 65 .lasting) up (fun t => t.fw.capture == some (1, 65, none) && t.fw.resetDue) = true
    ∧ goes (.watchdogExpiry 66 .lasting) up (fun t => t.fw.capture == some (2, 66, none) && t.fw.resetDue) = true
    ∧ (up0.panel 1).run = none ∧ tfind up0.fw.coreAt 1 = none
    ∧ goes (.coreFault 1 .lasting) up0 (fun t => t.fw.capture == some (1, 1, none) && !t.fw.resetDue
      && (repOf t).counter (some 0) cntLasting == ⟨1, false⟩) = true := by decide +kernel

end Sys2Proof.Tests
end

