-- ==== Sys2Proof/Tests/Flash.lean ====
section
/-! SUPPORT. Tests of memory errors, tier C, the hold-up gate and the bank. -/

namespace Sys2Proof.Tests

set_option Elab.async false

open Sys2Proof Sys2Proof.Machine

/-! ## Memory errors (R199, R200, R203, R204, R213) -/

theorem test_patrolTick : up0.isRun = true ∧ tierBytes 1 - 1 < tierBytes 1 ∧ up0.poisoned 1 128 = false
    ∧ gives (.memPatrolTick 1 128 none) up0 up0 = true
    ∧ goes (.memPatrolTick 1 128 (some .corrected)) up0 (fun t => (repOf t).counter none cntMemCorrectedB == ⟨1, false⟩) = true
    ∧ goes (.memPatrolTick 0 128 (some .transient)) up0 (fun t => (repOf t).counter (some 0) cntTransient == ⟨1, false⟩) = true
    ∧ goes (.memPatrolTick 1 130 (some .lasting)) up0 (fun t => t.poisoned 1 191 && t.mem.errPf.valid && t.mem.errPf.tier == 1
      && t.mem.errPf.addr == 128 && t.mem.errPf.status == stMemUncorrectable && t.mem.retired == [rowKey 1 128]
      && goes (.memPatrolTick 0 0 (some .lasting)) t (fun u => u.mem.errPf == t.mem.errPf && u.mem.retired.length == 2)) = true := by
  decide +kernel

theorem test_errInfoClear : let e : ErrLatch := { errInit with valid := true }
    let s := { up0 with mem := { memInit with errPf := e, errVf := [(0, e), (3, e)] } }
    goes (.memErrInfoClear 0) s (fun t => !t.mem.errPf.valid && t.mem.errVf == s.mem.errVf) = true
    ∧ goes (.memErrInfoClear 4) s (fun t => t.mem.errPf.valid && !(tget errInit t.mem.errVf 3).valid
      && (tget errInit t.mem.errVf 0).valid) = true := by decide +kernel

/-! ## FLASH_READ, FLASH_WRITE, FLASH_TRIM (R220, R221) -/

def fkey : Bytes := zeros 31 ++ [3]

/-- The page of die 0 at offset 0 of stripe block 0: one logical block of partition 0. -/
def upage : NPage := ⟨.blocks [(5, fkey, [9, 8])], [], false⟩

/-- Stripe block 0 lies on blocks 2 of dies 0, 4 and 8. -/
def sblk0 : SBlock := ⟨0, 0, [(0, 2), (4, 2), (8, 2)], 1, [], false⟩

def fup : State := { ringed 1 up0 with
  sec := { sec0 with slots := [(8, memSlot0), (9, memSlot0), (72, ⟨true, fkey, 0, 0, false, false, false, 0, 2 ^ engTierC, 0⟩)] }
  flc := { flashInit with
    st := 2, budget := 1, lblocks := [(5, ⟨pageKey 0 0 0, 0, false, false⟩)], sblks := [(0, sblk0)], nextSb := 1
    pages := [(pageKey 0 0 0, upage)] } }

def fread (host a n other : Nat) : Bytes := desc 0x60 [(8, 1, host), (16, 8, a), (24, 8, other), (32, 8, n)]

theorem test_flashReadHost : let d := fread 1 (4 * 4096) 8192 0x9000
    let s := wait 1 d fup
    Waits s 0x60 7 (opOf 1 d) ∧ s.flashReady = true ∧ s.flashStatus 0 false d = stOk ∧ s.tierCKey 0 = some fkey
    ∧ s.lblock 0 5 = some ⟨0, 0, false, false⟩ ∧ (tfind s.flc.pages 0).map (·.bad) = some false
    ∧ (s.die (pageDie 0)).gone = false ∧ (s.lblock 0 4).isNone = true ∧ s.reachable 1 = true
    ∧ goes (.flashRead 7 []) s (fun t => t.op 7 == none && (match t.out with
      | .hostWrite f a b :: _ => f == 1 && a == 0x9000 && b.length == 8192 && b.getD 4095 1 == 0 && b.getD 4096 0 == 9 && b.getD 4097 0 == 8
      | _ => false)) = true := by decide +kernel

/-- The last block of the range, and one past it. -/
theorem test_flashReadTier : let d := fread 0 (2 ^ 35 - 4096) 4096 (at0 1 64)
    let s := wait 1 d fup
    Waits s 0x60 7 (opOf 1 d) ∧ s.flashStatus 0 false d = stOk ∧ s.flashStatus 0 false (fread 0 (2 ^ 35) 4096 (at0 1 64)) = stFlcSpace
    ∧ s.flashStatus 0 false (fread 0 0 100 (at0 1 64)) = stFlcAlign := by decide +kernel

def fwr (n : Nat) : Bytes := putAt (fread 1 4096 n 0x9000) 0 [0x61]

/-- A write of 16 MiB + 4 KiB passes its checks and would make two extents; one of 4 KiB waits as one. -/
theorem test_flashWrite : let d := fwr 4096
    let s := wait 1 d fup
    Waits s 0x61 7 (opOf 1 d) ∧ s.flashBehind 7 (opOf 1 d) = false ∧ s.flashStatus 0 true d = stOk ∧ s.flashStatus 0 true (fwr (2 ^ 24 + 4096)) = stOk
    ∧ ceilDiv (2 ^ 24 + 4096) (2 ^ 24) = 2
    ∧ goes (.flashWrite 7 [1, 2] []) s (fun t => t.op 7 == some { opOf 1 d with phase := .running } && t.flc.nextExt == 1
      && t.flc.lblocks.map (·.1) == [5] && (match tfind t.flc.extents 0 with
      | some x => x.op == some 7 && !x.started && !x.system && x.size == 4096 && x.part == some 0 && x.pages.length == 1
        && (match x.pages with
          | [⟨.user, .blocks [(k, e, b)], []⟩] => k == 1 && e == fkey && slice b 0 3 == [1, 2, 0]
          | _ => false)
      | none => false)) = true := by decide +kernel

theorem test_flashWriteTier : let d := putAt (fread 0 4096 4096 (at0 0 4096)) 0 [0x61]
    (wait 1 d fup).flashStatus 0 true d = stOk ∧ (wait 1 d fup).clean 0 0 4096 4096 := by decide +kernel

theorem test_flashTrim : let d := desc 0x62 [(16, 8, 5 * 4096), (32, 8, 8192)]
    let s := wait 1 d { fup with flc := { fup.flc with lblocks := [(4, ⟨0, 1, false, false⟩)] ++ fup.flc.lblocks ++ [(7, ⟨0, 1, false, false⟩)] } }
    Waits s 0x62 7 (opOf 1 d) ∧ s.flashBehind 7 (opOf 1 d) = false ∧ s.trimStatus 0 d = stOk ∧ s.blocksBusy 0 5 2 = false
    ∧ goes (.flashTrim 7) s (fun t => t.op 7 == none && t.flc.lblocks.map (·.1) == [4, 7]) = true := by decide +kernel

/-! ## CHECKPOINT, CKPT_RESTORE (R232 to R236) -/

def ckd : Bytes := desc 0x63 [(16, 8, 0x9000), (24, 2, 2), (28, 4, 77)]

def clist : Bytes := leBytes 8 (at0 1 64) ++ leBytes 8 64 ++ leBytes 8 (at0 0 0) ++ leBytes 8 64

theorem test_checkpoint : let s := wait 1 ckd { fup with tierB := [(64, 5)], tierA := [(63, 6)] }
    Waits s 0x63 7 (opOf 1 ckd) ∧ s.ckptStatus 0 ckd = stOk ∧ s.reachable 1 = true ∧ s.listStatus 0 (extentsOf clist 2) = stOk
    ∧ (∀ e ∈ extentsOf clist 2, s.clean 0 e.1.tier e.1.addr e.2) ∧ (ceilDiv 128 16384 + 2) * 16384 ≤ (s.cfg 0).logBytes
    ∧ goes (.checkpoint 7 clist []) s (fun t => (t.gens 0).map (fun g => (g.gen, g.tag, g.extents, g.seq, g.count, g.pages))
        == [(1, 77, [(1, 64, 64), (0, 0, 64)], 0, 2, [])]
      && tget 0 t.flc.ckptSeq 0 == 3 && (tfind t.flc.extents 0).map (·.pages.length) == some 3
      && tget 1 t.flc.nextGen 0 == 2 && t.op 7 == some { opOf 1 ckd with phase := .running, detail := leBytes 4 1 }) = true := by
  decide +kernel

/-- A page of generation 1 with its footer over what it stores (R233). -/
def logPage (kind page : Nat) (b : PageBody) : NPage := ⟨b, footer page 1 kind 0 page b.stored, false⟩

def listPage : PageBody := .log 0 0 fkey (listBytes [(1, 64, 64)])

def dataPage : PageBody := .log 0 1 fkey [5]

/-- A commit page that counts two data pages. -/
def commitBody : PageBody := .bytes (leBytes 4 1 ++ leBytes 4 77 ++ leBytes 2 1 ++ zeros 2 ++ leBytes 4 2)

def gen1 : Gen := ⟨1, 77, [(1, 64, 64)], fkey, 0, 2, [(0, pageKey 1 0 0), (1, pageKey 1 4 0), (2, pageKey 1 0 1)]⟩

def restoreD : Bytes := desc 0x64 [(28, 4, 1)]

def genUp : State := wait 1 restoreD { fup with flc := { fup.flc with
  ckpts := [(0, [gen1])]
  pages := fup.flc.pages ++ [(pageKey 1 0 0, logPage 1 0 listPage), (pageKey 1 0 1, logPage 2 2 commitBody),
    (pageKey 1 4 0, logPage 1 1 dataPage)] } }

theorem footer_crcOk (seq gen kind p page : Nat) (d : Bytes) : footerCrcOk d (footer seq gen kind p page d) = true := by
  simp [footerCrcOk, footer, leBytes, zeros]

theorem footer_head (seq gen kind p page : Nat) (d e : Bytes) :
    (footer seq gen kind p page d).take 28 = (footer seq gen kind p page e).take 28 := by
  simp [footer, leBytes, zeros]

theorem genPageOk_of {kind i : Nat} {b : PageBody} (h : genUp.genPage gen1 i = some (logPage kind i b)) :
    genUp.genPageOk 0 gen1 kind i = true := by
  rw [State.genPageOk, h]
  simp [logPage, NPage.valid, footer_crcOk, footer_head _ _ _ _ _ b.stored [], show gen1.seq = 0 from rfl, show gen1.gen = 1 from rfl]

/-- Generation 1 is complete: its three pages decode, with valid footers in SEQ order (R234). -/
theorem test_genComplete : genUp.genComplete 0 gen1 = true := by
  have h0 := genPageOk_of (kind := 1) (i := 0) (b := listPage) (by rfl)
  have h1 := genPageOk_of (kind := 1) (i := 1) (b := dataPage) (by rfl)
  have h2 := genPageOk_of (kind := 2) (i := 2) (b := commitBody) (by rfl)
  have h3 : genUp.genCount gen1 = some 2 := by decide +kernel
  have h4 : gen1.count = 2 := rfl
  simp [State.genComplete, h0, h1, h2, h3, h4, List.range_succ]

theorem test_restore : Waits genUp 0x64 7 (opOf 1 restoreD) ∧ genUp.flashReady = true ∧ genUp.tierCKey 0 = some fkey
    ∧ zeroAt restoreD 8 20 = true ∧ zeroAt restoreD 32 32 = true ∧ genUp.findGen 0 1 = some gen1
    ∧ gen1.extents.all (fun e => genUp.inUnits 0 e.1 e.2.1 e.2.2 && !genUp.aggLocked 0 e.1 e.2.1 e.2.2
      && !genUp.gruLocked 0 e.1 e.2.1 e.2.2) = true := by
  refine ⟨by decide +kernel, by decide +kernel, by decide +kernel, by decide +kernel, by decide +kernel, ?_, by decide +kernel⟩
  have h : genUp.gens 0 = [gen1] := rfl
  simp [State.findGen, h, test_genComplete, show gen1.gen = 1 from rfl]

/-- No generation is complete: a restore of any ends with its status. -/
theorem test_restoreNone : let s := wait 1 restoreD fup
    s.findGen 0 1 = none ∧ gives (.ckptRestore 7 []) s (s.finish 7 stFlcNoCkpt) = true := by
  decide +kernel

/-! ## The gate and pages (R221, R237, R239) -/

/-- One block for a page of the user region, and the new data of a block that is rewritten in place. -/
def newPage : StagedPage := ⟨.user, .blocks [(5, fkey, [4])], []⟩

def backPage : StagedPage := ⟨.back (pageKey 0 0 0), .blocks [(5, fkey, [9, 8])], []⟩

def ext1 : Extent := ⟨some 7, some 0, false, 4096, false, [newPage], 0⟩

def gateUp (budget : Nat) (x : Extent) : State :=
  wait 1 (fwr 4096) { fup with flc := { fup.flc with budget := budget, extents := [(3, x)], nextExt := 4 } }

theorem test_gate : (gateUp 1 ext1).flc.nextExtent = some (3, ext1) ∧ (gateUp 1 ext1).flc.short = false
    ∧ (gateUp 1 ext1).dirty + 4096 ≤ 1 * 67108864 ∧ (gateUp 0 ext1).flc.budget * 67108864 < (gateUp 0 ext1).dirty + ext1.size
    ∧ goes .gateExtentAdmit (gateUp 1 ext1) (fun t => (tfind t.flc.extents 3).map (·.started) == some true) = true
    ∧ goes .gateExtentAdmit (gateUp 0 ext1) (fun t => (tfind t.flc.extents 3).map (·.started) == some false) = true := by decide +kernel

/-- The gate is exact: 16 MiB fit into 64 MiB beside 48 MiB, and 48 MiB + 16 KiB leave no room. -/
theorem test_gateEdge : let next : Extent := ⟨none, some 0, false, 2 ^ 24, false, [], 0⟩
    let s := fun k => { fup with flc := { fup.flc with extents := [(0, ⟨none, some 0, false, 3 * 2 ^ 24 + k, true, [], 0⟩), (1, next)] } }
    (s 0).dirty = 3 * 2 ^ 24
    ∧ goes .gateExtentAdmit (s 0) (fun t => (tfind t.flc.extents 1).map (·.started) == some true) = true
    ∧ goes .gateExtentAdmit (s 16384) (fun t => (tfind t.flc.extents 1).map (·.started) == some false) = true := by decide +kernel

/-- `x` is started and its descriptor runs; the dies outside parity group 0 take no writes. -/
def progUp (x : Extent) : State :=
  let s := gateUp 1 { x with started := true }
  { s with
    ops := [(7, { opOf 1 (fwr 4096) with phase := .running })]
    flc := { s.flc with dies := ((List.range 64).filter (fun d => d % 4 != 0)).map (fun d => (d, ⟨9, true, false⟩)) } }

theorem test_pageDone : let s := progUp ext1
    tfind s.flc.extents 3 = some { ext1 with started := true } ∧ s.pageBehind 3 { ext1 with started := true } = false
    ∧ (s.pagePlace newPage).isSome = true
    ∧ goes (.flashProgramDone 3 .ok) s (fun t => (match t.lblock 0 5 with
      | some b => !b.lost && !b.torn && ((tfind t.flc.pages b.page).map (fun x => slice (x.body.plain 5 b.idx fkey) 0 2)) == some [4, 0]
      | none => false) && tfind t.flc.extents 3 == none && t.op 7 == none) = true := by
  decide +kernel

/-- A page that fails its retry: its block retires and the page stays to be programmed again (R227); its die may be gone (R229). -/
theorem test_pageFails : let s := progUp { ext1 with pages := [backPage] }
    (s.pagePlace backPage).map (·.2) = some (0, 0)
    ∧ goes (.flashProgramDone 3 .grown) s (fun t => t.flc.badBlks == [blkKey 0 2] && (t.die 0).spares + 1 == (s.die 0).spares
      && (tfind t.flc.extents 3).map (·.pages.length) == some 1 && (t.op 7).map (·.status) == some stLastingFlash) = true
    ∧ goes (.flashProgramDone 3 .dieGone) s (fun t => (t.die 0).gone) = true := by decide +kernel

/-! ## Upkeep and the bank (R216, R217, R225 to R228, R384, R385) -/

/-- Block 2 of die 0 beside its stripe: the page at die 4 decodes or not. -/
def stripeUp (bad : Bool) : State := { fup with flc := { fup.flc with pages := fup.flc.pages ++ [(pageKey 0 4 0, ⟨.bytes [], [], bad⟩)] } }

theorem test_flashPatrol : let tick := fun e => Instr.flashPatrolTick 0 2 0 e
    (stripeUp false).flashReady = true ∧ (stripeUp false).blockAt 0 2 = some (0, sblk0) ∧ ((tfind (stripeUp false).flc.pages 0).map (·.bad)) = some false
    ∧ ((stripeUp false).rebuild 0 [0]).isSome = true ∧ ((stripeUp true).rebuild 0 [0]).isSome = false
    ∧ gives (tick []) fup fup = true
    ∧ goes (tick [(0, .corrected)]) fup (fun t => (repOf t).counter none cntFlcCorrected == ⟨1, false⟩) = true
    ∧ goes (tick [(0, .transient)]) fup (fun t => (repOf t).counter (some 0) cntTransient == ⟨1, false⟩) = true
    ∧ goes (tick [(0, .lasting)]) (stripeUp false) (fun t => (t.lblock 0 5).map (·.lost) == some false && t.flc.badBlks == [blkKey 0 2]) = true
    ∧ goes (tick [(0, .lasting)]) (stripeUp true) (fun t => (t.lblock 0 5).map (·.lost) == some true && t.flc.badBlks == [blkKey 0 2]) = true := by
  decide +kernel

theorem test_wear : let s := { fup with flc := { fup.flc with erases := [(blkKey 0 3, 500 * 11136)] } }
    s.blockAt 0 2 = some (0, sblk0) ∧ s.blockHolds 0 sblk0 = true ∧ s.drawBlock 0 = some 0
    ∧ (tget 0 s.flc.erases (blkKey 0 2) + 500) * s.dieBlocks ≤ s.eraseSum 0
    ∧ goes (.wearMove 0 2) s (fun t => t.flc.freeBlks == [blkKey 0 2] && t.flc.lblocks == s.flc.lblocks
      && (tfind t.flc.extents 0).map (fun x => x.pages.map (·.dest)) == some [.back (pageKey 0 0 0)]) = true
    ∧ (s.erasable 0 2 = false ∧ { s with flc := { s.flc with freeBlks := [blkKey 0 7] } }.erasable 0 7 = true)
    ∧ goes (.flashEraseDone 0 7 .ok) { s with flc := { s.flc with freeBlks := [blkKey 0 7] } } (fun u => u.flc.freeBlks == []
      && tget 0 u.flc.erases (blkKey 0 7) == 1) = true := by
  decide +kernel

theorem test_bank : goes .bankCapacitanceTest up (fun t => t.pwr.testing
      && goes (.bankTestDone 155) t (fun u => u.pwr.bank == 3 && u.pwr.cMeas == 155)
      && goes (.bankTestDone 156) t (fun u => u.pwr.bank == 2) && goes (.bankTestDone 249) t (fun u => u.pwr.bank == 2)
      && goes (.bankTestDone 250) { t with pwr := { t.pwr with bankMv := 54000 } } (fun u => u.pwr.bank == 0 && u.evSeq == t.evSeq)) = true
    ∧ goes .chargerFault up (fun t => t.pwr.bank == 3 && tget 0 t.evSeq srcPower == 1) = true := by decide +kernel

/-- 320 J give 2 GiB; 70 J give none; 48.0 V on 312 mF lies below 320 J (R238, R384). -/
theorem test_budget : budgetOf (2 * 320 * 10 ^ 9) = 32 ∧ budgetOf (2 * 70 * 10 ^ 9) = 0 ∧ budgetOf (2 * 77 * 10 ^ 9) = 1
    ∧ budgetOf (2 * 76 * 10 ^ 9) = 0 ∧ goes (.holdupEnergyMeasure 48000) up (fun t => t.flc.budget == 32 && t.pwr.bankMv == 48000) = true := by
  decide +kernel

end Sys2Proof.Tests
end

