-- ==== Sys2Proof/Tests/Graticule.lean ====
section
/-! SUPPORT. Tests of the Meridian and the Graticule. -/

namespace Sys2Proof.Tests

set_option Elab.async false

open Sys2Proof Sys2Proof.Machine

/-! ## Setting, cancelling, listing (R304, R309 to R313, R317) -/

/-- A second in the 10-byte form. -/
def secD (off secs ns : Nat) : List (Nat × Nat × Nat) := [(off, 6, secs), (off + 6, 4, ns)]

def setD (action part : Nat) : Bytes := desc 0x80 ([(4, 4, 0x55), (8, 1, action), (9, 1, part), (32, 8, at0 1 64), (40, 4, 2), (44, 4, 925)] ++ secD 16 1 5)

theorem test_markSet : let s := fun d => wait 0 d up0
    Waits (s (setD 5 0)) 0x80 7 (opOf 0 (setD 5 0)) ∧ (s (setD 5 0)).markSetStatus (opOf 0 (setD 5 0)) = stOk
    ∧ (s (setD 7 9)).markSetStatus (opOf 0 (setD 7 9)) = stOk ∧ (s (setD 6 3)).markSetStatus (opOf 0 (setD 6 3)) = stMrdField
    ∧ goes (.markSet 7) (s (setD 5 0)) (fun t => (t.mark 0).map (fun m => (m.time, m.action, m.part, m.tag, m.desc)) ==
      some (1000000005, 5, 0, 0x55, at0 1 64) && t.freeMarks == 4095 && t.op 7 == none) = true
    ∧ goes (.markSet 7) (s (setD 7 9)) (fun t => (t.mark 0).map (fun m => (m.part, m.item, m.value, m.partner)) == some (0xFF, 2, 925, some 1)
      && (t.mark 1).map (fun m => (m.st, m.time)) == some (.reserved, 1001000005) && t.freeMarks == 4094) = true := by decide +kernel

/-- A layout that gives partition 0 what `up0` gives it, and partition 1 Panels 2 and 3 and unit 1 of tiers A and B. -/
def lay1 : Bytes :=
  let e := fun pairs grus nC off => leBytes 4 pairs ++ leBytes 2 grus ++ leBytes 2 22 ++ leBytes 2 1 ++ leBytes 2 1 ++ leBytes 2 nC ++ zeros 2
    ++ leBytes 4 off ++ zeros 12
  e 1 1 1 1024 ++ e 2 0 0 1030 ++ zeros 960 ++ zeros 6 ++ leBytes 2 1 ++ leBytes 2 1

def lay0 : Bytes := lay1.take 32 ++ zeros 998

def cfgD : Bytes := desc 0x90 ([(4, 4, 0x55), (16, 8, 0x5000), (24, 4, 1034)] ++ secD 32 1 5)

theorem test_partConfig : let s := ringed 0 (wait 0 cfgD { up0 with layout := lay0 })
    Waits s 0x90 7 (opOf 0 cfgD) ∧ partConfigFieldOk cfgD = true ∧ s.reachable 0 = true ∧ lay1.length = 1034
    ∧ layCfg lay1 0 = cfg0 ∧ layCfg lay1 1 = ⟨2, 0, 22, [1], [1], []⟩
    ∧ s.partConfigStatus (opOf 0 cfgD) lay1 = stOk
    ∧ s.partConfigStatus (opOf 0 cfgD) (putAt lay1 32 [1]) = stMrdLayout
    ∧ goes (.partConfig 7 lay1) s (fun t => (t.mark 0).map (fun m => (m.time, m.action, m.part, m.layout)) == some (1000000005, 8, 0xFF, lay1)
      && (t.mark 1).map (fun m => (m.st, m.time)) == some (.reserved, 1001000005) && t.op 7 == none) = true := by decide +kernel

def tagD (opc : Nat) : Bytes := desc opc [(16, 4, 0x55)]

/-- Entry `i` holds a mark of `act` in state `st`. -/
def marks1 (act : Nat) (st : MarkSt) (s : State) : State :=
  { s with mrd := { s.mrd with marks := [(3, { plainMark 20000000 act 0 0 0x55 with st := st, item := 1, value := 1 })], nextSeq := 1 } }

theorem test_markCancel : let s := fun st => marks1 5 st (wait 1 (tagD 0x81) up0)
    Waits (s .set) 0x81 7 (opOf 1 (tagD 0x81)) ∧ ((s .set).cancelEntry 1 0x55).map (·.1) = some 3 ∧ (s .set).cancelEntry 2 0x55 = none
    ∧ zeroAt (tagD 0x81) 8 8 = true ∧ zeroAt (tagD 0x81) 20 44 = true
    ∧ goes (.markCancel 7) (s .set) (fun t => t.mrd.marks == [] && t.op 7 == none) = true
    ∧ gives (.markCancel 7) (s .arming) ((s .arming).finish 7 stMrdTooLate) = true
    ∧ (marks1 5 .set (wait 2 (tagD 0x81) up0)).cancelEntry 0 0x55 ≠ none
    ∧ gives (.markCancel 7) (marks1 5 .set (wait 2 (tagD 0x81) up0)) ((marks1 5 .set (wait 2 (tagD 0x81) up0)).finish 7 stMrdField) = true
    ∧ gives (.markCancel 7) (wait 1 (tagD 0x81) up0) ((wait 1 (tagD 0x81) up0).finish 7 stMrdNotFound) = true := by decide +kernel

def listD : Bytes := desc 0x82 [(16, 8, 0x9000)]

/-- A record: 10 bytes of time, action, partition, state 1, the TAG at byte 16. -/
theorem test_markList : let s := ringed 1 (marks1 5 .set (wait 1 listD up0))
    Waits s 0x82 7 (opOf 1 listD) ∧ s.reachable 1 = true ∧ zeroAt listD 8 8 = true ∧ zeroAt listD 24 40 = true
    ∧ goes (.markList 7) s (fun t => t.out.head? == some (.hostWrite 1 0x9000
        ([0, 0, 0, 0, 0, 0, 0x00, 0x2D, 0x31, 0x01, 5, 0, 1, 0, 0, 0, 0x55, 0, 0, 0] ++ zeros 12 ++ zeros 32))) = true := by decide +kernel

def timeD : Bytes := desc 0x83 (secD 16 2 7)

theorem test_timeSet : let s := wait 0 timeD up0
    Waits s 0x83 7 (opOf 0 timeD) ∧ timeAt timeD 16 = some 2000000007 ∧ zeroAt timeD 8 8 = true ∧ zeroAt timeD 26 38 = true
    ∧ goes (.timeSet 7) s (fun t => t.now == 2000000007 && t.mrd.stepped && t.op 7 == none) = true
    ∧ gives (.timeSet 7) (marks1 5 .set s) ((marks1 5 .set s).finish 7 stMrdMarksSet) = true := by decide +kernel

/-! ## Arming and acting (R311, R314, R319) -/

/-- A PARTITION mark that adds partition 1. -/
def partUp (st : MarkSt) : State := { up0 with
  layout := lay0
  mrd := { mrdInit with marks := [(3, { plainMark 20000000 8 0xFF 0 0x55 with st := st, layout := lay1, oldLay := lay0 })], nextSeq := 1 } }

theorem test_arming : changedParts lay0 lay1 = [1]
    ∧ goes (.markArmingStart 3) (partUp .set) (fun t => (t.mark 3).map (·.st) == some .arming && t.now == 10000000
      && (t.part 1).stop && !(t.part 0).stop) = true
    ∧ (partUp .arming).armReady { plainMark 20000000 8 0xFF 0 0x55 with layout := lay1 } = true
    ∧ goes (.markArmDeadline 3) ((partUp .arming).setPart 1 { partInit with stop := true }) (fun t => t.mark 3 == none && t.now == 19950000
      && !(t.part 1).stop && tget 0 t.evSeq srcMeridian == 1) = true := by decide +kernel

theorem test_participant : let m : Mark := { plainMark 20000000 5 0 0 0x55 with st := .arming }
    up0.participants m = [srcScheduler] ∧ (BitVec.ofNat 16 srcScheduler).toNat = srcScheduler
    ∧ goes (.markParticipantArmed 3 (BitVec.ofNat 16 srcScheduler) none) (marks1 5 .arming up0) (fun t => (t.mark 3).map (·.st) == some .armed) = true
    ∧ goes (.markParticipantArmed 3 (BitVec.ofNat 16 srcPower) none) (marks1 7 .arming up0) (fun t => (t.mark 3).map (·.st) == some .arming) = true := by
  decide +kernel

/-- A TRANSIENT error is counted and the unit is ARMED; a LASTING one keeps it from that (R26, R314). -/
theorem test_participantError : let m : Mark := { plainMark 20000000 5 0 0 0x55 with st := .arming }
    let u : BitVec 16 := BitVec.ofNat 16 srcScheduler
    (up0.participants m).contains u.toNat = true ∧ m.armed.contains u.toNat = false ∧ m.failed.contains u.toNat = false
    ∧ up0.now ≤ m.time - 50000 ∧ (marks1 5 .arming up0).armReady m = true
    ∧ goes (.markParticipantArmed 3 u (some .transient)) (marks1 5 .arming up0) (fun t => (t.mark 3).map (·.st) == some .armed
      && (tget cntInit t.cntMod cntTransient).count == 1) = true
    ∧ goes (.markParticipantArmed 3 u (some .lasting)) (marks1 5 .arming up0) (fun t => (t.mark 3).map (fun x => (x.st, x.failed)) ==
      some (.arming, [srcScheduler]) && (tget cntInit t.cntMod cntLasting).count == 1) = true := by decide +kernel

/-- The function is stopped until then: the descriptor of the mark goes in front; else it is dispatched. -/
theorem test_dispatchMark : let m : Mark := { plainMark 20000000 5 0 0 0x55 with st := .armed, desc := at0 1 64 }
    let s := { up0 with tierB := [(64, 0x63)], mrd := { mrdInit with marks := [(3, m)], nextSeq := 1 } }
    let held := s.setPart 0 { s.part 0 with stop := true }
    let bad := { s with tierB := [] }
    s.markNext m = true ∧ s.clean 0 1 64 64 ∧ bad.clean 0 1 64 64 ∧ (addrOf m.desc).tier = 1 ∧ (addrOf m.desc).addr = 64
    ∧ goes (.dispatchMark 3) held (fun t => t.mark 3 == none && t.now == 20000000 && (t.fn 1).fetched.map (fun x => (x.bytes.headD 0, x.src)) ==
      [(0x63, .mark)]) = true
    ∧ goes (.dispatchMark 3) s (fun t => t.mark 3 == none && (t.op s.nextOp).map (fun o => (o.fn, o.phase, o.origin)) == some (1, .ready, .mark)) = true
    ∧ goes (.dispatchMark 3) bad (fun t => t.mark 3 == none && t.op s.nextOp == none && (t.fn 1).heldC.map (·.status) == [stHifOpcode]) = true := by
  decide +kernel

theorem test_eventMark : goes (.eventMark 3) (marks1 6 .armed up0) (fun t => t.mark 3 == none && t.now == 20000000
    && tget 0 t.evSeq srcMeridian == 2) = true := by decide +kernel

/-! ## Module-wide marks (R312, R315, R316, R319, R364, R366) -/

theorem test_modeMark : let m2 : Mark := { plainMark 20000000 7 0xFF 0 0x55 with st := .armed, item := 2, value := 1000 }
    up0.markNext m2 = true ∧ up0.pwr.clock = 1850
    ∧ goes (.modeMark 3) (marks1 7 .armed up0) (fun t => t.glb.det && (t.mark 3).map (fun m => (m.st, m.oldVal)) == some (.applied, 0)) = true
    ∧ goes (.modeMark 3) { up0 with mrd := { mrdInit with marks := [(3, m2)] } } (fun t => t.pwr.clock == 1000
      && (t.mark 3).map (fun m => (m.st, m.oldVal)) == some (.applied, 1850)) = true := by decide +kernel

theorem test_partitionMark : goes (.partitionMark 3) (partUp .armed) (fun t => t.layout == lay1 && t.cfg 1 == ⟨2, 0, 22, [1], [1], []⟩
    && t.cfg 0 == cfg0 && (t.mark 3).map (fun m => (m.st, m.oldLay == lay0)) == some (.applied, true)) = true := by decide +kernel

/-- A FIRMWARE mark or, with `fb`, its fallback mark. -/
def fwMark (fb : Bool) (st : MarkSt) : State := { up0 with
  fw := { up0.fw with slotB := 2, image := b2n fb, running := b2n fb }
  mrd := { mrdInit with marks := [(3, { plainMark 20000000 9 0xFF 0 0x55 with st := st, fallback := fb, desc := 9 })], nextSeq := 1 } }

theorem test_firmwareMark :
    goes (.firmwareMark 3) (fwMark false .armed) (fun t => t.fw.running == 1 && (t.mark 3).map (fun m => (m.st, m.oldVal)) == some (.applied, 0)) = true
    ∧ goes (.fallbackMark 3) (fwMark true .armed) (fun t => t.fw.running == 0 && (t.mark 3).map (fun m => (m.st, m.oldVal)) == some (.applied, 1)) = true := by
  decide +kernel

theorem test_modeEnd : let s := { marks1 7 .applied up0 with glb := { up0.glb with det := true } }
    let m : Mark := { plainMark 20000000 7 0xFF 0 0x55 with st := .applied, item := 1, value := 1 }
    s.markBehind { m with time := m.time + 1000000 } = false ∧ (s.participants m).contains srcPower = false
    ∧ (s.participants m).contains (srcPanel 3) = true
    ∧ goes (.markRollbackWindowEnd 3 none none) s (fun t => t.mark 3 == none && t.now == 21000000 && t.glb.det
      && tget 0 t.evSeq srcMeridian == 1) = true
    ∧ goes (.markRollbackWindowEnd 3 (some (BitVec.ofNat 16 (srcPanel 3))) none) s (fun t => t.mark 3 == none && !t.glb.det) = true := by
  decide +kernel

/-- A participant that faults again is out of service (R315). -/
theorem test_rollbackAgain : let s := { marks1 7 .applied up0 with glb := { up0.glb with det := true } }
    let u : BitVec 16 := BitVec.ofNat 16 (srcPanel 3)
    goes (.markRollbackWindowEnd 3 (some u) (some u)) s (fun t => t.mark 3 == none && !t.glb.det && (t.panel 3).health == 3) = true := by
  decide +kernel

theorem test_partitionEnd : let s := (partUp .applied).applyLayout lay1
    s.layout = lay1
    ∧ goes (.markRollbackWindowEnd 3 (some (BitVec.ofNat 16 srcHost)) none) s (fun t => t.mark 3 == none && t.layout == lay0
      && !(t.cfg 1).enabled) = true
    ∧ goes (.markRollbackWindowEnd 3 none none) s (fun t => t.mark 3 == none && (t.part 1).blanking && !(t.part 0).blanking) = true
    ∧ goes (.partitionBlankDone 1) (s.setPart 1 { s.part 1 with blanking := true }) (fun t => !(t.part 1).blanking && !t.mem.busy) = true := by
  decide +kernel

theorem test_firmwareEnd :
    goes (.markRollbackWindowEnd 3 none none) (fwMark false .applied) (fun t => t.mark 3 == none && t.fw.image == 1 && t.fw.slotB == 3 && t.fw.running == 1) = true
    ∧ goes (.markRollbackWindowEnd 3 (some (BitVec.ofNat 16 srcThimble)) none) (fwMark false .applied) (fun t => t.mark 3 == none && t.fw.slotB == 4
      && t.fw.running == 0) = true
    ∧ goes (.markRollbackWindowEnd 3 none none) (fwMark true .applied) (fun t => t.mark 3 == none && t.fw.image == 0 && t.fw.slotB == 4) = true := by
  decide +kernel

/-! ## The source of time (R304 to R308, R380) -/

/-- PTP at port 2 with a master; LOCKING, one more near offset locks. -/
def ptpUp : State := { up with now := 5000, mrd := { mrdInit with master := some ⟨2, 9⟩, port := 2, st := 1, inBand := 15, delay := 300 } }

/-- The master's messages: over UDP, in domain 44. -/
def from2 : PtpFrom := ⟨⟨2, 9⟩, 44, true⟩

theorem test_ptp : ptpUp.ptpOpen from2 = true ∧ ptpUp.ptpOpen { from2 with domain := 0 } = false ∧ ptpUp.ptpOpen { from2 with udp := false } = false
    ∧ ptpUp.mrd.master = some from2.src ∧ ptpUp.mrd.syncT1 = none
    ∧ goes (.ptpSyncReceive from2 4800 false) ptpUp (fun t => t.mrd.offset == 100 && t.mrd.slew == 100 && t.mrd.st == 2) = true
    ∧ goes (.ptpSyncReceive from2 4801 false) { ptpUp with mrd := { ptpUp.mrd with st := 2, outBand := 15 } } (fun t => t.mrd.offset == 101 && t.mrd.st == 1) = true
    ∧ goes (.ptpSyncReceive from2 1004701 false) ptpUp (fun t => t.now == 1005001 && t.mrd.stepped) = true
    ∧ goes (.ptpSyncReceive from2 1004701 false) (marks1 5 .set ptpUp) (fun t => t.now == 5000 && t.mrd.slew == 1000001 && tget 0 t.evSeq srcMeridian == 1) = true
    ∧ goes (.ptpFollowUpReceive from2 4000) { ptpUp with mrd := { ptpUp.mrd with syncT2 := 4290 } } (fun t => t.mrd.offset == 10) = true
    ∧ goes .ptpDelayReqTimer ptpUp (fun t => t.mrd.delayT3 == 5000 && t.out == [.delayReq 2]) = true
    ∧ goes (.ptpDelayRespReceive from2 5301) { ptpUp with mrd := { ptpUp.mrd with syncT1 := some 4000, syncT2 := 4300, delayT3 := 5000 } }
      (fun t => t.mrd.delay == 300) = true
    ∧ goes .ptpAnnounceTimeout { ptpUp with mrd := { ptpUp.mrd with announceAt := 7 } } (fun t => t.mrd.st == 3 && t.mrd.master == none
      && t.now == 3000000007) = true := by decide +kernel

/-- The dataset of a clock whose first priority is `n`. -/
def data1 (n : BitVec 8) : PtpData := ⟨n, 6, 0x21, 0x4E5D, 128, 7, 0⟩

/-- A better clock at port 3 becomes the master at its second Announce (R305, notes/assumptions/77.md). -/
theorem test_announce : let x : PtpFrom := ⟨⟨3, 8⟩, 44, true⟩
    ptpUp.ptpOpen x = true
    ∧ goes (.ptpAnnounceReceive x (data1 1)) ptpUp (fun t => t.mrd.master == some ⟨2, 9⟩ && t.mrd.foreign.map (·.from_) == [⟨3, 8⟩]
      && goes (.ptpAnnounceReceive x (data1 1)) t (fun u => u.mrd.master == some ⟨3, 8⟩ && u.mrd.port == 3 && u.mrd.announceAt == 5000)) = true := by
  decide +kernel

/-- A pulse 300 ns after a whole second, and one 300 ns before it (R306). -/
theorem test_pps : let s := fun t => { up with now := t, mrd := { mrdInit with source := 1, st := 1 } }
    goes .ppsInEdge (s 1000000300) (fun t => t.mrd.offset == -300 && t.mrd.ppsAt == some 1000000300) = true
    ∧ goes .ppsInEdge (s 999999700) (fun t => t.mrd.offset == 300 && t.mrd.slew == 300) = true
    ∧ goes .ppsMissingTimeout { s 9 with mrd := { (s 9).mrd with ppsAt := some 8 } } (fun t => t.mrd.st == 3 && t.now == 3000000008) = true
    ∧ goes .ppsOutSecond (s 300) (fun t => t.mrd.ppsOut && t.now == 1000000000) = true := by decide +kernel

/-- Domain 0x18, port 2, profile 0, source 1; then the reserved source 3 and profile 2. -/
theorem test_mrdCfg : goes (.mrdCfgWrite 0x18041000) ptpUp (fun t => t.mrd.domain == 0x18 && t.mrd.ports == 4 && t.mrd.profile == 0
      && t.mrd.source == 1 && t.mrd.st == 0) = true
    ∧ goes (.mrdCfgWrite 0x1804B000) ptpUp (fun t => t.mrd.profile == 1 && t.mrd.source == 0 && t.mrd.st == 1) = true := by decide +kernel

end Sys2Proof.Tests
end

