-- ==== Sys2Proof/Tests/Gru.lean ====
section
/-! SUPPORT. Tests of Gate Refresh Units: key sets, programs, runs, ciphertexts. -/

namespace Sys2Proof.Tests

set_option Elab.async false

open Sys2Proof Sys2Proof.Machine

/-! ## Key sets (R168, R170) -/

/-- Memory in which nothing has gone wrong reads clean under a key that may be used. -/
theorem clean_of_sound (s : State) (p tier a n : Nat) (hk : s.memKey p tier = true) (hp : s.mem.poison = []) (hs : s.mem.stuck = [])
    (hu : s.mem.upset = []) : s.clean p tier a n := by
  refine ⟨hk, fun ln _ => ⟨?_, ?_⟩⟩
  · unfold State.poisoned
    rw [hp, hs]
    rfl
  · unfold State.errorIn
    rw [hu]
    rfl

theorem keysCanonical_of (s : State) (p : Nat) (d : Bytes) (g : GruSet) (h1 : gruSet (byteAt d 10) = some g)
    (h2 : ∀ i, s.keyWord p ⟨0, (addrAt d 16).tier, (addrAt d 16).addr, 0⟩ (8 * i) < qMod) : s.keysCanonical p d = true := by
  unfold State.keysCanonical
  rw [h1]
  exact List.all_eq_true.mpr (fun i _ => decide_eq_true (h2 i))

theorem leNat_zeros (l : Bytes) (h : ∀ x ∈ l, x = 0) : leNat l = 0 := by
  induction l with
  | nil => rfl
  | cons b bs ih =>
    have hb : b = 0 := h b (by simp)
    simp [leNat, hb, ih (fun x hx => h x (by simp [hx]))]

/-- A key set of zeros in a tier B that lists nothing. -/
theorem keyWord_empty (s : State) (p a off : Nat) (h : s.tierB = []) : s.keyWord p ⟨0, 1, a, 0⟩ off = 0 := by
  unfold State.keyWord le
  apply leNat_zeros
  intro x hx
  have hp : s.ptBytes p 1 (a + off) 8 = zeros 8 := by
    unfold State.ptBytes State.ptByte State.memOf
    simp only [h]
    rfl
  rw [hp] at hx
  revert hx
  have : ∀ y ∈ slice (zeros 8) 0 8, y = 0 := by decide
  exact this x

def ks0 : Bytes := desc 0x50 [(8, 2, 4095), (10, 1, 1), (16, 8, at0 1 4096), (24, 8, 74317824)]

theorem test_keyset : Waits (wait 1 ks0 up0) 0x50 7 (opOf 1 ks0) ∧ bit (byteAt ks0 11) 0 = false
    ∧ (wait 1 ks0 up0).keysetStatus (opOf 1 ks0).vf (opOf 1 ks0).bytes = stOk
    ∧ (wait 1 ks0 up0).keysetStatus 0 (putAt ks0 8 [0, 16]) = stGruId := by decide +kernel

theorem test_keysetReads : (wait 1 ks0 up0).clean 0 1 4096 74317824
    ∧ (wait 1 ks0 up0).keysCanonical (opOf 1 ks0).vf (opOf 1 ks0).bytes = true := by
  refine ⟨clean_of_sound _ _ _ _ _ (by decide +kernel) rfl rfl rfl, keysCanonical_of _ _ _ grA rfl (fun i => ?_)⟩
  have ha : (addrAt (opOf 1 ks0).bytes 16).tier = 1 := by decide +kernel
  rw [ha, keyWord_empty _ _ _ _ rfl]
  decide

def kset : KeySet := ⟨1, 1, 4096, 512⟩

def rel0 : Bytes := desc 0x50 [(8, 2, 4095), (11, 1, 1)]

/-- A released key set leaves its range alone in memory beyond it; one that a run names stays. -/
theorem test_keysetRelease : let s := { wait 1 rel0 (ringed 1 up0) with keysets := [(4095, kset)], tierB := [(4095, 1), (5000, 2), (4608, 3)] }
    let r := desc 0x52 [(10, 2, 4095)]
    Waits s 0x50 7 (opOf 1 rel0) ∧ tfind s.keysets 4095 = some kset
    ∧ s.runNames 1 7 (fun r => le r.bytes 10 2 == le rel0 8 2) = false
    ∧ { s with ops := s.ops ++ [(8, opOf 1 r)] }.runNames 1 7 (fun r => le r.bytes 10 2 == le rel0 8 2) = true
    ∧ goes (.gruKeysetRelease 7) s (fun t => t.op 7 == none && tfind t.keysets 4095 == none && rdByte t.tierB 4095 == 1) = true
    ∧ goes (.gruKeysetRelease 7) { s with ops := s.ops ++ [(8, opOf 1 r)] } (fun t => t.op 7 == none
      && t.keysets == [(4095, kset)] && t.tierB == s.tierB) = true := by decide +kernel

/-! ## Programs (R178 to R181) -/

def gkey : Bytes := (zeros 31) ++ [7]

/-- An image of one input, one constant of 1, one gate and one output of that gate; `tag` opens the constant under `gkey`. -/
def gimg (gate a b tag : Nat) : Bytes :=
  [1, 1, 0, 0] ++ leBytes 4 1 ++ leBytes 4 1 ++ leBytes 4 1 ++ leBytes 4 1 ++ zeros 4 ++ zeros 11 ++ [5] ++ leBytes 16 tag ++ zeros 12
    ++ leBytes 16 (gate * 2 ^ 124 + b * 2 ^ 24 + a) ++ leBytes 16 2 ++ [228]

def gtag (gate : Nat) : Nat :=
  if gate = 5 then 36758022667522314460888494302695946694 else 278497625016331226400956602977169929956

def gup (gate a b : Nat) : State := { ringed 1 up0 with
  tierB := (gimg gate a b (gtag gate)).mapIdx (fun i x => (8192 + i, x)) |>.filter (fun (c : Host.Cell) => c.2 != 0)
  sec := { sec0 with slots := [(8, memSlot0), (9, memSlot0), (169, ⟨true, gkey, 0, 0, false, false, false, 0, 2 ^ engGru, 0⟩)] }
  keysets := [(3, kset)] }

def pr0 : Bytes := desc 0x51 [(8, 1, 255), (9, 1, 169), (16, 8, at0 1 8192), (24, 8, 97)]

theorem test_program : let s := wait 1 pr0 (gup 0x5 0 1)
    Waits s 0x51 7 (opOf 1 pr0) ∧ bit (byteAt pr0 10) 0 = false ∧ (s.programStatus 0 pr0).1 = stOk
    ∧ (s.programStatus 0 (putAt pr0 24 [96])).1 = stGruFormat := by decide +kernel

theorem test_programGate : (gup 0xF 0 1).gatesOk 0 (progOf 169 1 8192 97 (gimg 0xF 0 1 (gtag 0xF)) []) = false
    ∧ (gup 0x0 0 0).gatesOk 0 (progOf 169 1 8192 97 (gimg 0 0 0 (gtag 0)) []) = true
    ∧ (gup 0x5 2 1).gatesOk 0 (progOf 169 1 8192 97 (gimg 5 2 1 (gtag 5)) []) = false := by decide +kernel

def gprog (gate a b : Nat) : GateProg := progOf 169 1 8192 97 (gimg gate a b (gtag gate)) [1]

theorem test_programRelease : let d := desc 0x51 [(8, 1, 255), (10, 1, 1)]
    let s := { wait 1 d (gup 0x5 0 1) with progs := [(255, gprog 5 0 1)] }
    Waits s 0x51 7 (opOf 1 d) ∧ s.runNames 1 7 (fun r => byteAt r.bytes 8 == byteAt d 8) = false
    ∧ goes (.gruProgramRelease 7) s (fun t => t.op 7 == none && t.progs == []) = true := by decide +kernel

/-! ## Runs (R182, R183, R187, R188) -/

def run0 : Bytes := desc 0x52 [(8, 1, 255), (10, 2, 3), (16, 8, at0 1 65536), (24, 8, at0 0 0), (32, 8, at0 0 8192)]

def rup (gate a b : Nat) : State := { wait 1 run0 (gup gate a b) with progs := [(255, gprog gate a b)] }

def rctx (gate a b : Nat) : GruCtx := ⟨0, gprog gate a b, kset, grA, addrAt run0 16, addrAt run0 24, addrAt run0 32⟩

theorem test_runStarts : let s := rup 0x5 0 1
    Waits s 0x52 7 (opOf 1 run0) ∧ s.runBehind 0 1 7 = false ∧ s.gruCtx 0 run0 = some (rctx 0x5 0 1) ∧ s.runStatus (rctx 0x5 0 1) = stOk
    ∧ s.bootGates (rctx 0x5 0 1) ≠ []
    ∧ goes (.gruRun 7) s (fun t => t.op 7 == some { opOf 1 run0 with phase := .running }
      && tfind t.gruRuns 0 == some ⟨7, 255, 3, false, [true], [], 0⟩
      && tget gruInit t.grus 0 == { gruInit with param := 1, batch := [0], slots := 1 }) = true := by decide +kernel

/-- NOT of an input: nothing to bootstrap. -/
theorem test_runLinear : let s := rup 0x0 0 0
    s.gruCtx 0 run0 = some (rctx 0x0 0 0) ∧ s.runStatus (rctx 0x0 0 0) = stOk
    ∧ s.bootGates (rctx 0x0 0 0) = [] ∧ s.clean 0 0 8192 (1 * 2560) := by decide +kernel

/-- A LASTING fault of the only GRU ends the run (R188). -/
theorem test_batch : let s := { rup 0x5 0 1 with
      ops := [(7, { opOf 1 run0 with phase := .running })]
      gruRuns := [(0, ⟨7, 255, 3, false, [true], [], 0⟩)]
      grus := [(0, { gruInit with param := 1, batch := [0], slots := 1 })] }
    s.gruPart 0 = some 0 ∧ s.gruCtx 0 run0 = some (rctx 0x5 0 1) ∧ (tget gruInit s.grus 0).batch ≠ []
    ∧ goes (.gruBatchDone 0 (some .lasting)) s (fun t =>
      (tget gruInit t.grus 0).offline && (tget gruInit t.grus 0).batch == [] && t.gruRuns == [] && t.op 7 == none) = true := by
  decide +kernel

/-! ## Arithmetic (R165, R166, R171) -/

theorem test_gates : let k := [1, 0]
    let a := [5, 9, 0x20000005]
    let b := [7, 2, 0xE0000007]
    lwePhase k a = 0x20000000 ∧ lwePhase k b = 0xE0000000
    ∧ lwePhase k (gateLinear 0x0 a b) = 0xE0000000 ∧ lwePhase k (gateLinear 0x3 a b) = 0xE0000000
    ∧ lwePhase k (gateLinear 0x5 a b) = 0x20000000 ∧ lwePhase k (gateLinear 0x7 a a) = 0xC0000000
    ∧ lwePhase k (gateLinear 0xC a b) = 0x60000000 := by decide +kernel

theorem test_rotations : polyRot 1 [1, 2, 3] = [qMod - 3, 1, 2] ∧ polyRot 4 [1, 2, 3] = [3, qMod - 1, qMod - 2]
    ∧ polyNeg (polyRot 1 [1, 2, 3]) = polyRot 4 [1, 2, 3] := by decide +kernel

theorem test_stored : lweBytes 16 [1, 2, 0xE0000000] = leBytes 4 1 ++ leBytes 4 2 ++ leBytes 4 0xE0000000 ++ zeros 4
    ∧ lweOf 2 (lweBytes 16 [1, 2, 0xE0000000]) = [1, 2, 0xE0000000] := by decide +kernel

end Sys2Proof.Tests
end

