-- ==== Sys2Proof/Tests/Host.lean ====
section
/-! SUPPORT. Tests of the queue, the registers, the host interface and reports: each shows a state that meets the
hypotheses of a clause of the statements, and what the command answers there by the rule that the clause cites. -/

namespace Sys2Proof.Tests

set_option Elab.async false

open Sys2Proof Sys2Proof.Machine

/-! ## The queue -/

theorem test_step_front : step (up.queued .linkDown) = exec .linkDown up := rfl

theorem test_step_idle : State.reset.mrd.slew = 0 ∧ State.reset.pending = []
    ∧ step State.reset = .next { State.reset with now := 1 } := ⟨rfl, rfl, rfl⟩

theorem test_reset_memOk : State.reset.memOk ∧ step State.reset = .next (idle State.reset) := ⟨⟨rfl, rfl⟩, rfl⟩

/-! ## Register accesses (R6, R7, R341, R404, R405) -/

theorem test_badWidth : up.isRun = true ∧ 0x7FFFFF < barBytes 32
    ∧ goes (.badAccessWidth 32 0x7FFFFF 64 false) up (fun t => t.out == [.readData 32 0x7FFFFF 64 (2 ^ 64 - 1)]
      && (repOf t).counter (some 31) cntBadAccess == ⟨1, false⟩) = true := by decide +kernel

theorem test_debugView : 0x3FFFFFC < barBytes 0 ∧ gives (.debugViewWrite 0x800000 1) up (up.countMod cntSecDbgWrite) := by
  decide +kernel

theorem test_ovfClear : 50 < pageCounters 1 ∧ 24 < pageCounters 0
    ∧ goes (.counterOvfClear 1 50) { up with cntPart := [(50, ⟨2 ^ 48 - 1, true⟩)] } (fun t =>
      (repOf t).counter (some 0) 50 == ⟨0, false⟩) = true := by decide +kernel

theorem test_clearAll : goes (.cntCtlClearAll 0) { up with cntMod := [(3, ⟨5, false⟩)], cntPart := [(3, ⟨6, false⟩)] } (fun t =>
    (repOf t).counter none 3 == ⟨0, false⟩ && (repOf t).counter (some 0) 3 == ⟨6, false⟩) = true := by decide +kernel

/-- Seconds 2^32 + 5 and 7 ns: the LO half, then the latched halves (R7, R304). -/
theorem test_latch : let s := { up with now := (2 ^ 32 + 5) * 10 ^ 9 + 7 }
    goes (.loReadLatch 0 0x580000) s (fun t => t.out == [.readData 0 0x580000 32 5] && t.readReg 0 0x580004 == 1
      && t.readReg 0 0x580008 == 7) = true := by decide +kernel

/-! ## Register writes (R20, R212, R246, R303, R352, R371) -/

theorem test_glbCtl : gives (.registerWrite 0 0x4 1) up { up with glb := { up.glb with det := true } }
    ∧ gives (.registerWrite 1 0x4 1) up up := by decide +kernel

theorem test_memPatrol : goes (.registerWrite 0 0x400000 0x01A8) up (fun t => t.mem.patrolA == 168 && t.mem.patrolB == 1) = true
    ∧ goes (.registerWrite 0 0x400000 0x00A9) up (fun t => t.mem.patrolA == 0x18 && t.mem.patrolB == 0x18) = true := by
  decide +kernel

theorem test_flcPatrol : goes (.registerWrite 0 0x480008 30) up (fun t => t.flc.patrol == 30) = true
    ∧ goes (.registerWrite 0 0x480008 31) up (fun t => t.flc.patrol == 7) = true := by decide +kernel

theorem test_fabCfg : goes (.registerWrite 0 0x500000 0xFFFF0100) up (fun t => t.fab.udpPort == 0xFFFF && t.fab.timeout == 1
    && t.fab.rnr == 0x14) = true := by decide +kernel

/-- The address of FAB is held while a job is bound. -/
theorem test_fabAddr : let s := { up with fab := { fabInit with jobs := [(1, ⟨0, 8, 1⟩)] } }
    s.fab.jobs ≠ [] ∧ gives (.registerWrite 0 0x50001C 5) s s
      ∧ goes (.registerWrite 0 0x50001C 5) up (fun t => tget 0 t.fab.addr 3 == 5) = true := by decide +kernel

theorem test_pairs : goes (.registerWrite 0 0x5C0010 0x00FFFFFF) up (fun t =>
      goes (.registerWrite 0 0x5C0014 1) t (fun u => u.sec.dbgWin == 2 ^ 32 + 0x800000)) = true
    ∧ goes (.registerWrite 0 0x680010 0x1F) up (fun t =>
      goes (.registerWrite 0 0x680014 2) t (fun u => u.fw.mboxLo == 0x10 && u.fw.mboxHi == 2)) = true := by decide +kernel

theorem test_hifWords : up.serving = true ∧ 15 < 16 ∧ goes (.registerWrite 32 0x10003C 9) up (fun t =>
    tget 0 (t.fn 32).win.words 15 == 9 && (t.fn 31).win.words == []) = true := by decide +kernel

/-- A commit while BUSY is lost; CMD_LOST is cleared by a write of 1 (R252, R253). -/
theorem test_commitLost : let s := up.setFn 1 { hifInit with win := { cmdWinInit with busy := true } }
    (s.fn 1).win.busy = true ∧ s.serving = true ∧ goes (.registerWrite 1 0x100040 1) s (fun t => (t.fn 1).win.lost
      && goes (.registerWrite 1 0x100044 0x40000000) t (fun u => !(u.fn 1).win.lost)) = true := by decide +kernel

theorem test_ingCfg : goes (.registerWrite 0 (0x320000 + 0x400 * 31) 0xFF) up (fun t => (t.ing 31).cut == 127) = true
    ∧ goes (.registerWrite 32 0x320010 0xFFFF) up (fun t => (t.ing 31).ien == 0x7FF) = true := by decide +kernel

theorem test_steppedClear : goes (.registerWrite 5 0x580014 0x2000000) { up with mrd := { mrdInit with stepped := true } }
    (fun t => !t.mrd.stepped) = true := by decide +kernel

theorem test_emptyReadClear : goes (.registerWrite 0 0x5E0000 0x80000000) { up with rng := { rngInit with empty := true } }
    (fun t => !t.rng.empty) = true := by decide +kernel

theorem test_noRegister : gives (.registerWrite 0 0x31FFFC 5) up up ∧ gives (.registerWrite 0 0x67FFFC 5) up up
    ∧ gives (.registerWrite 1 0x480008 1) up up ∧ gives (.registerWrite 1 0x6FFFFC 1) up up := by decide +kernel

/-! ## Rings (R254, R265) -/

/-- The largest and smallest ring sizes of R254. -/
def ringDesc : Bytes := desc 0x08 [(9, 1, 4), (10, 1, 16), (11, 1, 4), (12, 1, 1), (16, 8, 0x1000), (24, 8, 0x2000), (32, 8, 0)]

theorem test_ringCreate : let s := ctl 1 ringDesc up
    s.control 1 0x08 .ready = some 7 ∧ s.op 7 = some (ctlOp 1 ringDesc) ∧ ringFieldsOk (ctlOp 1 ringDesc).bytes = true
    ∧ (s.fn 1).rings = .disabled ∧ goes (.ringCreate 1) s (fun t => (t.fn 1).rings == .active && (t.fn 1).rs.sqBase == 0x1000
      && (t.fn 1).rs.cqLog == 16 && t.op 7 == none) = true := by decide +kernel

theorem test_ringDelete : let o := ctlOp 1 (desc 0x09 [])
    let s := ctl 1 (desc 0x09 []) (ringed 1 up)
    s.control 1 0x09 .ready = some 7 ∧ s.op 7 = some o ∧ (s.fn 1).rings = .active
    ∧ goes (.ringDelete 1) s (fun t => (t.fn 1).rings == .deleting && t.op 7 == some { o with phase := .running }
      && t.control 1 0x09 .running == some 7 && !t.outstanding 1
      && goes (.ringDeleteDone 1) t (fun u => (u.fn 1).rings == .disabled && u.op 7 == none)) = true := by decide +kernel

/-! ## Doorbells, fetch, dispatch (R255, R256, R258, R261) -/

theorem test_sqTail : ((ringed 1 up).fn 1).rung = true ∧ (0x1000F : Word).toNat % 65536 < 2 ^ ((ringed 1 up).fn 1).rs.sqLog
    ∧ goes (.hifSqTailWrite 1 0x1000F) (ringed 1 up) (fun t => (t.fn 1).rs.sqTail == 15) = true
    ∧ goes (.hifSqTailWrite 1 16) (ringed 1 up) (fun t => (t.fn 1).rs.sqTail == 0
      && (repOf t).counter (some 0) partCntHifBadDoorbell == ⟨1, false⟩) = true := by decide +kernel

/-- Two records are live: HEAD may move to 2 and not to 3. -/
theorem test_heads : let s := up.setFn 1 { hifInit with rings := .active, rs := { rs0 with cqProd := 2, eqProd := 2 } }
    ringLive 4 2 0 ≤ ringLive 4 (s.fn 1).rs.cqProd (s.fn 1).rs.cqHead
    ∧ goes (.hifCqHeadWrite 1 2) s (fun t => (t.fn 1).rs.cqHead == 2) = true
    ∧ goes (.hifEqHeadWrite 1 2) s (fun t => (t.fn 1).rs.eqHead == 2) = true
    ∧ gives (.hifCqHeadWrite 1 3) s (s.badDoorbell 1) := by decide +kernel

theorem test_badDoorbell : (up.fn 1).rung = false ∧ gives (.hifSqTailWrite 1 0) up (up.badDoorbell 1) := by decide +kernel

/-- A ring of NOPs from the last slot on. -/
theorem test_fetch : let s := up0.setFn 1 { hifInit with rings := .active, rs := { rs0 with sqTail := 1, sqHead := 15 } }
    s.serving = true ∧ (s.fn 1).rings = .active ∧ [desc 0 [], desc 0 []].length ≤ (s.fn 1).canFetch
    ∧ goes (.descriptorFetchDone 1 [desc 0 [], desc 0 []]) s (fun t => (t.fn 1).rs.sqHead == 1
      && (t.fn 1).fetched.map (·.idx) == [15, 0]) = true := by decide +kernel

/-- Dispatch of a NOP: it becomes ticket 0 with a token of its own. -/
theorem test_dispatch : let x : Fetched := ⟨3, desc 0 [(4, 4, 77)], .ring, stOk⟩
    let s := up0.setFn 1 { hifInit with rings := .active, rs := rs0, fetched := [x] }
    s.serving = true ∧ s.markDue = false ∧ s.dispatchHeld 1 = false ∧ bit (byteAt x.bytes 1) 0 = false
    ∧ s.nextTok 1 = .own ∧ s.dispatchStatus 1 x = stOk
    ∧ goes (.descriptorDispatch 1) s (fun t => (t.fn 1).fetched == [] && (t.op 0).map (·.tag) == some 77) = true := by
  decide +kernel

/-- A reserved bit in byte 1: ST_HIF_FIELD, the record held while the rings reach no host memory. -/
theorem test_dispatchRefused : let x : Fetched := ⟨3, desc 0 [(1, 1, 4), (4, 4, 77)], .ring, stOk⟩
    let s := up0.setFn 1 { hifInit with rings := .active, rs := rs0, fetched := [x] }
    s.dispatchStatus 1 x ≠ stOk ∧ goes (.descriptorDispatch 1) s (fun t => t.op 0 == none && t.out.length == 1) = true := by
  decide +kernel

theorem test_coalesce : let s := up.setFn 1 { hifInit with rings := .active, rs := rs0, unsig := 1, unsigAt := 100 }
    (s.fn 1).unsig ≠ 0 ∧ (s.fn 1).rs.coUs ≠ 0 ∧ goes (.coalesceTimerExpiry 1) s (fun t => t.out == [.msix 1 0] && t.now == 5100) = true := by
  decide +kernel

theorem test_holdoff : let s := up.setFn 1 { hifInit with rings := .active, rs := rs0, ev1Pend := true, ev1At := some 100 }
    (s.fn 1).ev1Pend = true ∧ goes (.eventVectorHoldoffEnd 1) s (fun t => t.out == [.msix 1 1] && t.now == 10100) = true := by
  decide +kernel

/-! ## Driver loss and resets (R265, R269 to R273) -/

theorem test_heartbeat : gives (.hifHeartbeat 1 5) up (up.setFn 1 { hifInit with hbVal := 5 })
    ∧ goes (.hifHbCfgWrite 1 10) up (fun t => (t.fn 1).hbMs == 10) = true
    ∧ goes (.hifHbCfgWrite 1 60000) up (fun t => (t.fn 1).hbMs == 60000) = true
    ∧ gives (.hifHbCfgWrite 1 9) up up ∧ gives (.hifHbCfgWrite 1 60001) up up := by decide +kernel

theorem test_heartbeatExpiry : let s := (ringed 1 up).setFn 1 { (ringed 1 up).fn 1 with hbMs := 10, hbFrom := 5 }
    (s.fn 1).rings = .active ∧ (s.fn 1).hbMs ≠ 0 ∧ goes (.heartbeatExpiry 1) s (fun t => (t.fn 1).rings == .detached
      && (t.fn 1).cause == 1 && t.now == 30000005 && (t.fn 0).heldE.length == 1) = true := by decide +kernel

theorem test_loss : let s := ringed 1 up
    goes (.busMasterEnableClear 1) s (fun t => (t.fn 1).cause == 3) = true ∧ goes (.d3hotEntry 1) s (fun t => (t.fn 1).cause == 7) = true
    ∧ goes (.tdispError 0) s (fun t => (t.fn 1).cause == 6 && (t.fn 1).tdi == .error) = true
    ∧ goes .linkDown (ringed 32 s) (fun t => (t.fn 1).cause == 2 && (t.fn 32).rings == .detached) = true := by decide +kernel

theorem test_heldClear : goes (.hifHeldStatClear 2) (up.setFn 2 { hifInit with win := { cmdWinInit with heldValid := true } })
    (fun t => !(t.fn 2).win.heldValid) = true := by decide +kernel

theorem test_tdisp : goes (.tdispLockInterface 31) up (fun t => (t.fn 32).tdi == .locked
    && goes (.tdispStartInterface 31) t (fun u => (u.fn 32).tdi == .run
      && goes (.nonIdeRequest 31) u (fun v => v.out == [.unsupported 32] && (repOf v).counter (some 31) 50 == ⟨1, false⟩)
      && goes (.tdispStopInterface 31) u (fun v => (v.fn 32).tdi == .unlocked))) = true := by decide +kernel

/-- A control command that executes at the reset ends in the reset-held area (R270). -/
theorem test_flr : let s := (ringed 1 up).setFn 1 { (ringed 1 up).fn 1 with hbMs := 10, win := { cmdWinInit with words := [(0, 1)] } }
    s.sec.sessions = [] ∧ goes (.vfFlr 0) s (fun t => (t.fn 1).hbMs == 0 && (t.fn 1).win.words == [] && (t.fn 1).cause == 4) = true := by
  decide +kernel

theorem test_pfResets : let s := { ringed 1 up with sec := { sec0 with dbgWin := 0x800000 } }
    goes .pfFlr s (fun t => t.sec.dbgWin == 0 && (t.fn 1).cause == 4) = true ∧ goes .hotReset s (fun t => (t.fn 1).cause == 5) = true
    ∧ s.pwr.perst = false ∧ goes .perstNAssert s (fun t => t.pwr.perst && (t.fn 1).cause == 2
      && goes .perstNRelease t (fun u => !u.pwr.perst)) = true := by decide +kernel

/-! ## Reports (R23, R259, R397, R405) -/

theorem test_counterSaturates : let r := repOf { up with cntMod := [(3, ⟨2 ^ 48 - 2, false⟩)] }
    (r.counter none 3).ovf = false ∧ 2 ^ 48 - 1 ≤ (r.counter none 3).count + 1 ∧ (r.fn 0).live = false
    ∧ (r.count none 3 1).counter none 3 = ⟨2 ^ 48 - 1, true⟩ ∧ ((r.count none 3 1).fn 0).heldE.map (·.code) = [evCntOverflow]
    ∧ ((r.count none 3 1).count none 3 1).counter none 3 = ⟨2 ^ 48 - 1, true⟩
    ∧ ((r.count none 3 1).count none 3 1).evSeq = (r.count none 3 1).evSeq := by decide +kernel

/-- The record of a NOP with TAG 0x11223344 in slot 15 of a ring on its first pass: PHASE 1, the next slot starts a new pass. -/
theorem test_completion : let o := { opOf 1 (desc 0 [(4, 4, 0x11223344)]) with idx := 9 }
    let s := { up.setFn 1 { hifInit with rings := .active, rs := { rs0 with cqProd := 15, cqHead := 3 } } with ops := [(7, o)], now := 10 ^ 9 + 5 }
    s.op 7 = some o ∧ o.origin ≠ .control ∧ o.quiet = false ∧ (s.fn 1).live = true
    ∧ ringRoom (s.fn 1).rs.cqLog (s.fn 1).rs.cqProd (s.fn 1).rs.cqHead = true
    ∧ (s.finish 7 0x0602).out = [.hostWrite 1 (0x2000 + 32 * 15) (leBytes 4 0x11223344 ++ leBytes 2 0x602 ++ [0, 1] ++ leBytes 2 9
      ++ leBytes 2 0 ++ zeros 12 ++ leBytes 4 5 ++ leBytes 4 1)]
    ∧ ((s.finish 7 0x0602).fn 1).rs.cqProd = 0 ∧ ((s.finish 7 0x0602).fn 1).rs.cqPass = false := by decide +kernel

theorem test_quiet : let o := opOf 1 (desc 0 [(1, 1, 2)])
    o.quiet = true ∧ ({ up with ops := [(7, o)] }.finish 7 0).out = [] ∧ ({ up with ops := [(7, o)] }.finish 7 0).ops = [] := by
  decide +kernel

theorem test_event : let s := { ringed 0 up with now := 3 }
    (s.fn 0).live = true ∧ (s.fn 0).heldE = [] ∧ ringRoom (s.fn 0).rs.eqLog (s.fn 0).rs.eqProd (s.fn 0).rs.eqHead = true
    ∧ (s.raise srcHost evHifDriverLost 0xFF [1, 2]).out = [.hostWrite 0 0x3000 (leBytes 2 srcHost ++ leBytes 2 evHifDriverLost
      ++ zeros 4 ++ leBytes 8 3 ++ [0xFF, 0] ++ [1, 2] ++ zeros 11 ++ [0x80]), .msix 0 1] := by decide +kernel

end Sys2Proof.Tests
end

