-- ==== Sys2Proof/Tests/Memory.lean ====
section
/-! SUPPORT. Tests of the memory under every command, the host descriptors and the Seam units. -/

namespace Sys2Proof.Tests

set_option Elab.async false

open Sys2Proof Sys2Proof.Machine

/-- The units of one partition lie apart; the others hold none. -/
theorem unitsDistinct_one (s : State) (x : Part) (h : s.parts = [(0, x)]) (ha : x.cfg.tierA.Nodup) (hb : x.cfg.tierB.Nodup) :
    s.unitsDistinct := by
  intro p tier
  have hp : (s.cfg p).units tier = (if p = 0 then x.cfg else cfgInit).units tier := by
    unfold State.cfg State.part
    rw [h]
    by_cases hq : p = 0
    · subst hq; rfl
    · simp only [tget, hq, if_false]; rfl
  rw [hp]
  split
  · unfold PartCfg.units; split
    · exact ha
    · exact hb
  · unfold PartCfg.units cfgInit; split <;> exact List.nodup_nil

theorem test_unitsDistinct : up0.unitsDistinct := unitsDistinct_one _ _ rfl (by decide) (by decide)

/-- Two units in an order of their own: partition unit 1 is unit 0. -/
theorem test_layoutSound : State.reset.layoutSound := by
  refine ⟨fun p hp tier => ?_, fun p => ?_, fun e he => by cases he⟩
  · have h : ∀ p < 32, layCfg State.reset.layout p = cfgInit := by decide +kernel
    rw [h p hp]; unfold PartCfg.units cfgInit; split <;> exact List.nodup_nil
  · have h : ∀ p < 32, layCfg State.reset.layout p = cfgInit := by decide +kernel
    split
    · rw [h p ‹_›]; rfl
    · rfl

/-! ## Reads and writes (R193, R197, R201, R409) -/

/-- The last bytes of a partition's range; a line of its own that is poisoned keeps its byte unless it is written whole. -/
def poisoned0 : State := { up0 with mem := { memInit with poison := [lineKey 1 64] }, tierB := [(65, 9)] }

theorem test_write : up0.inUnits 0 0 (2 ^ 30 - 2) 2 = true
    ∧ (up0.memWrite 0 0 (2 ^ 30 - 2) [1, 2]).1.tierA = [(2 ^ 30 - 2, 1), (2 ^ 30 - 1, 2)]
    ∧ poisoned0.keepsPoison 0 1 63 3 2 ∧ ¬ poisoned0.keepsPoison 0 1 63 3 0
    ∧ (poisoned0.memWrite 0 1 63 [1, 2, 3]).1.tierB = [(63, 1), (65, 9)]
    ∧ (poisoned0.memWrite 0 1 63 [1, 2, 3]).2.status = stMemPoison
    ∧ (poisoned0.memWrite 0 1 64 (zeros 64)).1.poisoned 1 64 = false := by decide +kernel

theorem test_read : up0.clean 0 1 0 128 ∧ poisoned0.clean 0 1 0 64 ∧ ¬ poisoned0.clean 0 1 63 2
    ∧ poisoned0.poisoned 1 (poisoned0.phys 0 1 (63 + 2)) = true
    ∧ (poisoned0.memRead 0 1 63 3).2 = ⟨[0, 0, 0], none, some 64, false, false⟩
    ∧ (poisoned0.memRead 0 1 63 3).2.status = stMemPoison ∧ (poisoned0.memRead 0 1 63 3).2.line = 64 := by decide +kernel

/-! ## DMA (R262, R264, R267) -/

def dmaIn0 : Bytes := desc 1 [(8, 8, 0x9000), (16, 8, at0 1 64), (24, 8, 64)]

def host1 (s : State) : State := ringed 1 s

theorem test_nop : Waits (wait 1 (desc 0 []) up0) 0x00 7 (opOf 1 (desc 0 []))
    ∧ goes (.nop 7) (wait 1 (desc 0 []) up0) (fun t => t.op 7 == none) = true := by decide +kernel

theorem test_dmaIn : let s := wait 1 dmaIn0 (host1 up0)
    Waits s 0x01 7 (opOf 1 dmaIn0) ∧ s.reachable 1 = true ∧ s.aggLocked 0 1 64 64 = false ∧ s.gruLocked 0 1 64 64 = false
    ∧ goes (.dmaIn 7 (5 :: zeros 63)) s (fun t => t.tierB == [(64, 5)] && (t.op 7).map (·.phase) == some .running
      && goes (.dmaTransferDone 7) t (fun u => u.op 7 == none && u.out.length == 1)) = true := by decide +kernel

theorem test_dmaOut : let d := desc 2 [(8, 8, 0x9000), (16, 8, at0 1 64), (24, 8, 64)]
    let s := { wait 1 d (host1 up0) with tierB := [(64, 5)] }
    Waits s 0x02 7 (opOf 1 d) ∧ s.reachable 1 = true ∧ s.sealedHit 0 1 64 64 = false
    ∧ goes (.dmaOut 7 []) s (fun t => t.out == [.hostWrite 1 0x9000 (5 :: zeros 63)]) = true := by decide +kernel

theorem test_dmaMove : let d := desc 3 [(8, 8, at0 1 64), (16, 8, at0 0 0), (24, 8, 64)]
    let s := { wait 1 d (host1 up0) with tierB := [(64, 5)] }
    Waits s 0x03 7 (opOf 1 d) ∧ goes (.dmaMove 7 []) s (fun t => t.tierA == [(0, 5)]) = true
    ∧ goes (.dmaMove 7 [⟨1, 64, .lasting⟩]) s (fun t => t.tierA == [] && (t.op 7).map (·.status) == some stMemUncorrectable) = true := by
  decide +kernel

/-- A round in tier A, a key set and a sealed range in tier B. -/
def locked0 : State := { host1 up0 with
  rounds := [(0, { roundInit with st := .opened, pol := { policyInit with vlen := 1 } })], keysets := [(0, ⟨0, 1, 0, 64⟩)]
  sec := { up0.sec with weights := [(0, ⟨1, 128, 64, []⟩)] } }

theorem test_dmaLocks : let d := fun op a => desc op [(8, 8, 0x9000), (16, 8, a), (24, 8, 64)]
    locked0.aggLocked 0 0 65472 64 = true ∧ locked0.aggLocked 0 0 65536 64 = false ∧ locked0.gruLocked 0 1 0 64 = true
    ∧ locked0.gruLocked 0 1 64 64 = false ∧ locked0.sealedHit 0 1 128 64 = true
    ∧ goes (.dmaIn 7 []) (wait 1 (d 1 (at0 0 65472)) locked0) (fun t => t == (wait 1 (d 1 (at0 0 65472)) locked0).finish 7 stAggLocked) = true
    ∧ goes (.dmaIn 7 []) (wait 1 (d 1 (at0 1 0)) locked0) (fun t => t == (wait 1 (d 1 (at0 1 0)) locked0).finish 7 stGruLocked) = true
    ∧ goes (.dmaOut 7 []) (wait 1 (d 2 (at0 1 128)) locked0) (fun t => t == (wait 1 (d 2 (at0 1 128)) locked0).finish 7 stSecSealed) = true
    ∧ goes (.dmaIn 7 []) (wait 1 dmaIn0 up0) (fun t => t == (wait 1 dmaIn0 up0).finish 7 stHifHostUnreachable) = true := by
  decide +kernel

/-! ## Weight images (R333, R334) -/

def wkey : Bytes := zeros 32

/-- The plaintext of the image under test, its ciphertext under the zero key and nonce, its tag. -/
def wplain : Bytes := 1 :: zeros 15

def wct : Bytes := gcmCrypt wkey (zeros 12) wplain

def wimage : Bytes := zeros 16 ++ gcmTag wkey (zeros 12) [] wct ++ wct

def wdesc (flags : Nat) : Bytes := desc 6 [(8, 1, 63), (9, 1, 168), (10, 1, flags), (16, 8, 0x9000), (24, 8, at0 1 0), (32, 8, 16)]

def wup : State := { host1 up0 with sec := { sec0 with slots := [(8, memSlot0), (9, memSlot0), (168, ⟨true, wkey, 0, 0, false, false, false, 0, 2 ^ engWeight, 0⟩)] } }

theorem test_weightLoad : let s := wait 1 (wdesc 2) wup
    Waits s 0x06 7 (opOf 1 (wdesc 2)) ∧ s.weightStatus 0 (wdesc 2) = stOk ∧ s.reachable 1 = true
    ∧ gcmOpen wkey (slice wimage 0 12) [] (slice wimage 32 16) (slice wimage 16 16) = some wplain
    ∧ goes (.weightLoad 7 wimage []) s (fun t => t.tierB == [(0, 1)]
      && (tfind t.sec.weights 63).map (·.digest) == some (sha384 wplain) && t.op 7 == none) = true
    ∧ gcmOpen wkey (slice wimage 0 12) [] (slice wimage 32 16) (zeros 16) = none
    ∧ goes (.weightLoad 7 (zeros 32 ++ wct) []) { s with tierB := [(3, 4), (16, 4)] } (fun t => t.tierB == [(16, 4)]
      && t.sec.weights == []) = true := by decide +kernel

theorem test_weightRelease : let s := { wait 1 (wdesc 1) wup with tierB := [(3, 4), (16, 4)], sec := { wup.sec with weights := [(63, ⟨1, 0, 16, []⟩)] } }
    Waits s 0x06 7 (opOf 1 (wdesc 1)) ∧ tfind s.sec.weights (weightKey 0 63) = some ⟨1, 0, 16, []⟩
    ∧ goes (.weightRelease 7) s (fun t => t.tierB == [(16, 4)] && t.sec.weights == [] && t.op 7 == none) = true := by decide +kernel

/-! ## Seam units (R84 to R91, R263) -/

/-- 2^127 − 1 plus 1 wraps; COUNT saturates; F61 reduces. -/
theorem test_elemAdd : (elemAdd kindInt128 ⟨2 ^ 127 - 1, 0, 2 ^ 41 - 1⟩ ⟨1, 0, 1⟩) = ⟨-(2 ^ 127), 1, 2 ^ 41 - 1⟩
    ∧ (elemAdd kindF61 ⟨2 ^ 61 - 2, 0, 0⟩ ⟨1, 0, 0⟩).val = 0 ∧ (elemAdd kindRing32 ⟨2 ^ 32 - 1, 0, 0⟩ ⟨2, 0, 0⟩).val = 1 := by
  decide +kernel

theorem test_seamAdd : up0.inUnits 0 0 0 (kindBytes kindRing64) = true ∧ up0.clean 0 0 0 (kindBytes kindRing64)
    ∧ (up0.seamAdd 0 0 kindRing64 0 ⟨2 ^ 64 - 1, 0, 0⟩).1.tierA = (List.range 8).map (fun i => (i, 0xFF)) := by decide +kernel

def regionDesc (flags : Nat) : Bytes := desc 0x68 [(8, 8, at0 0 64), (16, 8, 9), (24, 2, 1023), (26, 1, kindRing64), (27, 1, flags), (28, 4, 5)]

theorem test_seamRegion : let s := wait 1 (regionDesc 0) up0
    Waits s 0x68 7 (opOf 1 (regionDesc 0)) ∧ s.regionStatus 0 (regionDesc 0) = stOk ∧ s.regionStatus 0 (regionDesc 1) = stOk
    ∧ goes (.seamRegion 7) s (fun t => (t.region 0 1023).map (fun r => (r.elems, r.kTotal, r.clearing)) == some (9, 5, false)
      && t.op 7 == none) = true
    ∧ goes (.seamRegion 7) { wait 1 (regionDesc 1) up0 with tierA := [(63, 1), (64, 1), (135, 1), (136, 1)] } (fun t =>
      (t.region 0 1023).map (·.clearing) == some true && goes (.seamRegionClearDone 0 1023) t (fun u =>
        (u.region 0 1023).map (·.clearing) == some false && u.tierA == [(63, 1), (136, 1)] && u.op 7 == none)) = true := by
  decide +kernel

/-- A region of nine 64-bit ring elements at 64. -/
def reg0 : Region := ⟨0, 64, 9, kindRing64, 5, .opened, false, 3, none, none, []⟩

def regUp : State := { host1 up0 with regions := [(1023, reg0)], nextDef := 4 }

theorem test_seamRelease : let s := wait 1 (regionDesc 2) regUp
    Waits s 0x68 7 (opOf 1 (regionDesc 2)) ∧ s.releaseStatus 0 (regionDesc 2) = stOk ∧ s.region 0 1023 = some reg0
    ∧ goes (.seamRegionRelease 7) s (fun t => (t.region 0 1023).map (·.phase) == some .releasing
      && goes (.seamCloseDrainDone 0 1023 []) t (fun u => u.regions == [] && u.op 7 == none)) = true := by decide +kernel

/-- Element 8 is converted to a 32-bit integer by its centred lift. -/
theorem test_seamFinalise : let d := desc 0x69 [(8, 8, at0 1 0), (16, 8, 8), (24, 8, 1), (32, 2, 1023), (34, 1, fmtRing64), (35, 1, 1)]
    let s := { wait 1 d regUp with tierA := [(128, 7)] }
    Waits s 0x69 7 (opOf 1 d) ∧ s.finaliseStatus 0 d = stOk
    ∧ goes (.seamFinalise 7) s (fun t => (t.region 0 1023).map (·.phase) == some .finalising
      && goes (.seamCloseDrainDone 0 1023 []) t (fun u => u.tierB == [(0, 7)] && u.tierA == [] && u.op 7 == none
        && (u.region 0 1023).map (·.phase) == some .opened)) = true := by decide +kernel

def xf0 : Xfer := ⟨.host 7, .region 0 1023 3 0 64 kindRing64, [(0, ⟨1, 0, 0⟩), (8, ⟨2, 0, 0⟩)], 0, 0, false, [], []⟩

theorem test_addend : let s := { regUp with xfers := [(5, xf0)] }
    tfind s.xfers 5 = some xf0 ∧ (s.seamAdd 0 0 kindRing64 64 ⟨1, 0, 0⟩).2 = stOk
    ∧ goes (.seamAddendApply 5 none []) s (fun t => t.tierA == [(64, 1)]
      && goes (.seamAddendApply 5 none []) t (fun u => u.tierA == [(64, 1), (128, 2)] && u.xfers == [])) = true
    ∧ goes (.seamAddendApply 5 none []) { s with regions := [] } (fun t => t.tierA == [] && (tfind t.xfers 5).map (·.failed.map (·.1)) == some [0]) = true
    ∧ goes (.seamAddendApply 5 none []) { s with regions := [(1023, { reg0 with clearing := true })] } (fun t => t.tierA == []
      && (t.region 0 1023).map (·.waiting) == some [(5, 0, ⟨1, 0, 0⟩)]) = true := by decide +kernel

theorem test_hostSeamAdd : let d := desc 4 [(8, 8, 0x9000), (16, 8, 7), (24, 4, 2), (28, 2, 1023), (30, 1, 0), (31, 1, fmtRing64)]
    let s := wait 1 d regUp
    Waits s 0x04 7 (opOf 1 d) ∧ s.hostAddStatus 0 d = stOk ∧ s.reachable 1 = true
    ∧ goes (.hostSeamAdd 7 (leBytes 8 3 ++ leBytes 8 4)) s (fun t => (tfind t.xfers 0).map (·.rest) == some [(7, ⟨3, 0, 0⟩), (8, ⟨4, 0, 0⟩)]) = true
    ∧ s.hostAddStatus 0 (desc 4 [(16, 8, 8), (24, 4, 2), (28, 2, 1023), (31, 1, fmtRing64)]) = stSeamRange := by decide +kernel

end Sys2Proof.Tests
end

