-- ==== Sys2Proof/Tests/Security.lean ====
section
/-! SUPPORT. Tests of the Thimble: tenant switch, FAULT_SECURE, the random source, sessions, tenant keys, the Cartouche. -/

namespace Sys2Proof.Tests

set_option Elab.async false

open Sys2Proof Sys2Proof.Machine

/-- A tenant session, and one that is none, both over the management link; slots 0 and 1 of the boot. -/
def tenX : Session := ⟨7, .mctp, true, true, 0, 0, []⟩
def attX : Session := ⟨8, .doe 3, true, false, 0, 0, []⟩

def secUp : State := { up0 with
  pwr := { up0.pwr with latched := true }
  sec := { sec0 with
    sessions := [tenX, attX], tenantId := some (zeros 48)
    slots := [(0, ⟨true, zeros 48, 2, 2, false, true, false, 0, 2 ^ engCart, 0⟩),
      (1, ⟨true, zeros 32, 2, 2, false, true, false, 0, 2 ^ engKdf, 0⟩),
      (168, ⟨true, zeros 32, 0, 0, false, false, false, 0, 2 ^ engWeight, 7⟩),
      (169, ⟨true, zeros 32, 0, 0, false, true, false, 0, 2 ^ engGru, 8⟩)] } }

/-! ## Tenant switch, FAULT_SECURE (R3, R343 to R345) -/

def retireD : Bytes := desc 0x92 [(16, 4, 0xFFFFFFFF)]

theorem test_switch : let s := fun d => { wait 0 d secUp with tierA := [(5, 1)] }
    Waits (s (desc 0x91 [])) 0x91 7 (opOf 0 (desc 0x91 [])) ∧ zeroAt (desc 0x91 []) 8 56 = true
    ∧ Waits (s retireD) 0x92 7 (opOf 0 retireD) ∧ zeroAt retireD 8 8 = true ∧ zeroAt retireD 20 44 = true
    ∧ le retireD 16 4 = 2 ^ 32 - 1 - (s retireD).sec.epoch % 2 ^ 32
    ∧ goes (.tenantSwitch 7) (s (desc 0x91 [])) (fun t => t.sec.slots == [] && t.sec.sessions == [] && t.sec.pending && t.tierA == []
      && t.flc.st == 4 && t.mem.busy && t.sec.epoch == 0) = true
    ∧ goes (.lifecycleRetire 7) (s retireD) (fun t => t.sec.slots == [] && t.sec.retiring && t.sec.tenantId.isSome) = true := by
  decide +kernel

theorem test_switchDone : let s := fun r => { secUp with sec := { secUp.sec with switchRun := true, pending := true, retiring := r } }
    goes (.tenantSwitchScrubDone []) (s false) (fun t => t.sec.epoch == 1 && t.sec.tenantId == none && t.pwr.phase == .holdup
      && t.pwr.selfRst && !t.sec.pending) = true
    ∧ goes (.tenantSwitchScrubDone []) (s true) (fun t => t.sec.fused == .retired && t.sec.udsFused && !(t.slot 0).valid
      && t.pwr.phase == .run) = true := by decide +kernel

/-- In FACTORY the field check refuses a retirement (notes/assumptions/82.md). -/
theorem test_retireFactory : let s := { wait 0 retireD secUp with sec := { secUp.sec with fused := .factory } }
    s.sec.lifecycle = 0 ∧ gives (.lifecycleRetire 7) s (s.finish 7 stSecField) = true := by decide +kernel

/-- A line that fails its verification twice: its row is retired (R205, R210). -/
theorem test_scrubBad : let s := { secUp with sec := { secUp.sec with switchRun := true, pending := true } }
    s.mem.stuck.contains (lineKey 1 64) = false ∧ tget 0 s.mem.spares (1 * 256 + groupOf 1 64) < spareRows 1
    ∧ goes (.tenantSwitchScrubDone [(1, 64)]) s (fun t => t.mem.retired.contains (rowKey 1 64)) = true := by decide +kernel

theorem test_faultSecure : secUp.sec.lifecycle = 1 ∧ (secUp.sec.slots.any fun e => e.2.valid) = true ∧ { secUp.sec with fused := .factory }.lifecycle = 0
    ∧ goes .meshBreach secUp (fun t => t.sec.latch && t.sec.cause == 2 && t.sec.slots == [] && t.sec.sessions == []) = true
    ∧ goes .glitchDetect secUp (fun t => t.sec.latch && t.sec.cause == 3) = true
    ∧ goes (.keySlotIntegrityFault 168) secUp (fun t => t.sec.latch && t.sec.cause == 4 && (repOf t).counter (some 0) cntLasting == ⟨1, false⟩) = true
    ∧ gives .meshBreach { secUp with sec := { secUp.sec with fused := .factory } } { secUp with sec := { secUp.sec with fused := .factory } } = true
    ∧ gives .glitchDetect up up = true := by
  decide +kernel

/-! ## OPERATOR_KEY, masks, fuses (R3, R328, R391) -/

/-- A generator that has answered nothing yet. -/
def drbg1 : Drbg := ⟨zeros 32, 0, 0⟩

theorem test_upkeep : let d := desc 0x96 [(16, 8, 0x9000)]
    let s := ringed 0 (wait 0 d { secUp with sec := { secUp.sec with maskDrbg := some drbg1 } })
    let key := ecEncode (ecGx, ecGy)
    Waits s 0x96 7 (opOf 0 d) ∧ zeroAt d 8 8 = true ∧ zeroAt d 24 40 = true ∧ s.reachable 0 = true
    ∧ (ecParse (slice key 0 97)).isSome = true ∧ (ecParse (slice (zeros 97) 0 97)).isSome = false
    ∧ goes (.mgmtCred 7 key) { s with sec := { s.sec with seqFloor := 9 } } (fun t => t.sec.opKey == some key && t.sec.seqFloor == 0 && t.op 7 == none) = true
    ∧ gives (.mgmtCred 7 (zeros 97)) s (s.finish 7 stSecField) = true
    ∧ s.thimbleUp = true ∧ goes .keyMaskRefresh s (fun t => t.sec.maskDrbg.isSome && t.sec.slots.map (·.1) == s.sec.slots.map (·.1)) = true
    ∧ goes .fusingToDeployed { s with sec := { s.sec with fused := .factory } } (fun t => t.sec.fused == .deployed) = true
    ∧ gives .fusingToDeployed s s = true := by decide +kernel

/-! ## The random source (R346, R347, R351) -/

/-- Bits 1, 0, 1, 0, …; all 0; 839 and 840 equal bits among 1,024 in runs of less than 81. -/
def goodB : Bytes := List.replicate 128 0x55
def mixB (n : Nat) : Bytes := (List.range 128).map (fun k => if k < n then 0x00 else if k % 8 = 7 then 0xFF else 0x00)

theorem test_blockTest : blockTest (blockBits goodB) = 0 ∧ blockTest (blockBits (zeros 128)) = 1 ∧ blockTest (blockBits (mixB 0)) = 2
    ∧ blockTest (List.replicate 80 true ++ [false]) = 0 := by decide +kernel

theorem test_rngBlocks : let s := fun (r : Rng) => { secUp with rng := r }
    let r0 : Rng := { rngInit with running := [3, 4], passed := true, blocks := 50, fails := [1, 40] }
    slice goodB 0 128 = goodB
    ∧ goes (.rngBlockTest 3 goodB) (s r0) (fun t => t.rng.blocks == 51 && t.rng.fifo == []) = true
    ∧ goes (.rngBlockTest 3 (zeros 128)) (s r0) (fun t => t.rng.running == [4] && t.rng.alarm && t.sec.latch && t.sec.cause == 1) = true
    ∧ goes (.rngBlockTest 3 (zeros 128)) (s { r0 with fails := [40] }) (fun t => t.rng.running == [4] && !t.rng.alarm) = true
    ∧ goes (.rngBlockTest 3 (zeros 128)) (s { r0 with blocks := 1100, fails := [76, 90] }) (fun t => !t.rng.alarm) = true
    ∧ goes (.rngBlockTest 3 (zeros 128)) (s { r0 with passed := false }) (fun t => !t.rng.alarm && t.rng.blocks == 51) = true
    ∧ goes (.rngSourceRestartDone 5) (s r0) (fun t => t.rng.running == [5, 3, 4]) = true := by decide +kernel

/-- An injected block takes the place of the tapped source's, once 128 bytes of it are there (R346, R351). -/
theorem test_rngInjected : let s := fun n => { secUp with rng := { rngInit with
      running := [3], passed := true, inject := true, tapSrc := 3, injected := zeros n } }
    (s 128).rng.tapSrc = 3 ∧ 128 ≤ (s 129).rng.injected.length ∧ (s 127).rng.injected.length < 128
    ∧ goes (.rngBlockTest 3 goodB) (s 127) (fun t => t.rng == (s 127).rng) = true
    ∧ goes (.rngBlockTest 3 goodB) (s 129) (fun t => t.rng.injected == [0] && t.rng.running == [] && t.rng.blocks == 1) = true := by
  decide +kernel

/-- Two blocks of the start-up test may fail, whichever way they are reported; a third one is fatal (R347). -/
theorem test_rngStart : let s := { secUp with parts := [], fw := { secUp.fw with load := 3 } }
    let two : List (Nat × Nat × Nat) := [(1, 0, 1), (65536, 63, 2)]
    let one := { s with rng := { s.rng with startFails := 1, blocks := 5 } }
    s.rng.ended = false ∧ (∀ f ∈ two, s.rng.blocks < f.1 ∧ f.1 ≤ 65536 ∧ f.2.1 < 64 ∧ (f.2.2 = 1 ∨ f.2.2 = 2))
    ∧ two.Pairwise (fun a b => a.1 < b.1)
    ∧ goes (.rngStartupTestDone two) s (fun t => t.rng.passed && !t.rng.alarm && t.fw.load == 4) = true
    ∧ goes (.rngStartupTestDone [(6, 0, 1), (7, 1, 2)]) one (fun t => t.rng.alarm && t.sec.latch && t.sec.cause == 1 && t.sec.slots == []) = true := by
  decide +kernel

theorem test_rngRegs : let s := { up with rng := { rngInit with inject := true } }
    goes .rngRawRead up (fun t => t.rng.empty && t.out == [.readData 0 0x5E0008 32 0]) = true
    ∧ goes .rngRawRead { up with rng := { rngInit with fifo := [5, 6] } } (fun t => t.rng.fifo == [6] && t.out == [.readData 0 0x5E0008 32 0x80000005]) = true
    ∧ goes (.rngRawWrite 0x12345) s (fun t => t.rng.injected == [0x45, 0x23]) = true ∧ gives (.rngRawWrite 1) up up = true
    ∧ goes (.rngCtlWrite 0xC5) up (fun t => t.rng.tap && t.rng.tapSrc == 5 && !t.rng.inject && tget 0 t.evSeq srcThimble == 1) = true
    ∧ goes (.rngCtlWrite 0x40) { up with sec := { sec0 with fused := .factory } } (fun t => t.rng.inject && tget 0 t.evSeq srcThimble == 0) = true := by
  decide +kernel

/-! ## Sessions (R335 to R337) -/

theorem test_spdm : secUp.carries .mctp = true ∧ secUp.carries (.doe 3) = true ∧ (secUp.slot 0).usable engCart 0 = true
    ∧ goes (.spdmGetMeasurements .mctp) secUp (fun t => t.out.length == 1) = true
    ∧ goes (.spdmChallenge .mctp [1, 2]) secUp (fun t => t.out.length == 1) = true
    ∧ goes (.spdmGetCertificate .mctp) secUp (fun t => t.out.length == 1) = true := by decide +kernel

def nine : State := { secUp with sec := { secUp.sec with
  sessions := (List.range 8).map (fun k => ⟨100 + k, .mctp, false, false, 0, 0, []⟩) } }

theorem test_keyExchange : secUp.session 9 = none ∧ nine.session 9 = none ∧ nine.sec.sessions.length = 8
    ∧ goes (.spdmKeyExchange .mctp 9 (zeros 96)) nine (fun t => t.sec.sessions.length == 8 && t.out == [.spdm .mctp 0x7F [0x0A]]) = true
    ∧ goes (.spdmKeyExchange .mctp 9 (zeros 96)) secUp (fun t => t.sec.sessions == [tenX, attX] && t.out == [.spdm .mctp 0x7F [1]]) = true
    ∧ (ecParse ([4] ++ (ecEncode (ecGx, ecGy)).drop 1)).isSome = true
    ∧ goes (.spdmKeyExchange .mctp 9 (zeros 96)) { secUp with sec := { secUp.sec with switchRun := true } } (fun t =>
      t.out == [.spdm .mctp 0x7F [5]]) = true := by decide +kernel

/-- Session 9 is handshaken; the module has a tenant, or none. -/
def shake (tenant : PeerRoot) : State := { secUp with sec := { secUp.sec with
  tenantId := tenant, sessions := [⟨9, .mctp, false, false, 0, 0, []⟩] } }

theorem test_finish : (shake none).session 9 = some ⟨9, .mctp, false, false, 0, 0, []⟩
    ∧ goes (.spdmFinish 9 none) (shake none) (fun t => t.session 9 == some ⟨9, .mctp, true, false, 0, 0, []⟩ && t.sec.tenantId == none) = true
    ∧ goes (.spdmFinish 9 (some [1])) (shake none) (fun t => t.session 9 == some ⟨9, .mctp, true, true, 0, 0, []⟩ && t.sec.tenantId == some [1]) = true
    ∧ goes (.spdmFinish 9 (some [1])) (shake (some [2])) (fun t => t.session 9 == some ⟨9, .mctp, true, false, 0, 0, []⟩ && t.sec.tenantId == some [2]) = true := by
  decide +kernel

theorem test_session : let s := { secUp with now := 5 }
    InSession s 7 tenX ∧ InSession s 8 attX
    ∧ goes (.spdmKeyUpdate 7) s (fun t => t.session 7 == some { tenX with keyNo := 1, hbAt := 5 }) = true
    ∧ goes (.spdmHeartbeat 7) s (fun t => t.session 7 == some { tenX with hbAt := 5 } && t.session 8 == some attX) = true
    ∧ goes (.spdmEndSession 7) s (fun t => t.session 7 == none && !(t.slot 168).valid && (t.slot 169).valid) = true
    ∧ goes (.spdmHeartbeatExpiry 8) s (fun t => t.sec.sessions == [tenX] && t.now == 20000000000 && !(t.slot 169).valid) = true
    ∧ goes (.doeAbort 3) s (fun t => t.sec.sessions == [tenX]) = true
    ∧ goes .mgmtLinkReset s (fun t => t.sec.sessions == [attX]) = true := by decide +kernel

/-! ## Tenant keys (R326, R330 to R332, R338) -/

/-- What a vendor-defined response holds behind the vendor's identifier, which is open. -/
def rspBody (o : Output) : Bytes := match o with
  | .spdm _ _ d => d.drop 7
  | _ => []

/-- KEY_DELIVER into slot 170: partition 4, an engine mask, LIFETIME persistent. -/
def delivB (engine : Nat) : Bytes := [170, 4] ++ leBytes 2 engine ++ [2, 1, 0, 0] ++ List.replicate 32 0xA5

theorem test_keyDeliver : deliverFieldOk (delivB 64) 40 = true ∧ le (delivB 64) 2 2 = 64 ∧ byteAt (delivB 64) 4 = 2
    ∧ (secUp.slot 170).valid = false ∧ (∀ e ∈ secUp.flc.media, e.1 < 32)
    ∧ goes (.keyDeliver 7 (vendorReq 1 (delivB 64))) secUp (fun t => t.slot 170 == ⟨true, List.replicate 32 0xA5, 0, 2, true, false, false, 4, 64, 7⟩
      && t.out.map rspBody == [rspBody (vendorRsp .mctp 1 stOk [])]) = true
    ∧ goes (.keyDeliver 8 (vendorReq 1 (delivB 64))) secUp (fun t => t.out.map rspBody == [rspBody (vendorRsp (.doe 3) 1 stSecNotTenant [])] && t.sec.slots == secUp.sec.slots) = true := by
  decide +kernel

/-- The wrap key of secUp's set, and a key of zeros wrapped under it. -/
def kek0 : Bytes := [94, 180, 85, 151, 13, 27, 9, 114, 233, 232, 245, 25, 193, 184, 4, 27, 177, 93, 9, 161, 164, 170, 136, 15,
  75, 83, 184, 198, 15, 204, 227, 29]
def wrapped0 : Bytes := [149, 114, 148, 69, 158, 90, 107, 13, 147, 171, 16, 123, 171, 134, 101, 224, 22, 251, 176, 91, 174, 221,
  75, 177, 94, 243, 224, 89, 216, 16, 47, 144, 129, 115, 66, 188, 46, 21, 225, 123]

/-- A tenant tier C key makes the data key of its partition. -/
theorem test_keyDeliverTierC : let s := { secUp with
      flc := { flashInit with media := [(4, wrapped0)] }
      sec := { secUp.sec with slots := (4, ⟨true, kek0, 2, 2, false, true, false, 0, 0, 0⟩) :: secUp.sec.slots } }
    let k : KeySlot := ⟨true, slice (delivB 32) 8 32, 0, 2, true, false, false, 4, 32, 7⟩
    (∀ e ∈ s.flc.media, e.1 < 32) ∧ s.tierCHeld k = false
    ∧ goes (.keyDeliver 7 (vendorReq 1 (delivB 32))) s (fun t => t.slot 170 == k && (t.slot 76).valid && t.slot 75 == s.slot 75) = true := by decide +kernel

theorem test_wrapKey : secUp.wrapKey = kek0 := by decide +kernel

theorem test_unwraps : keyUnwrap3394 kek0 wrapped0 = some (zeros 32) := by decide +kernel

def unwrapB : Bytes := [170, 0xFF, 0, 0, 0, 2, 0, 0] ++ wrapped0

theorem test_keyUnwrap : (secUp.slot 1).valid = true ∧ deliverFieldOk unwrapB 48 = true ∧ byteAt unwrapB 4 = 0
    ∧ keyUnwrap3394 secUp.wrapKey (slice unwrapB 8 40) = some (zeros 32) := by
  refine ⟨by decide +kernel, by decide +kernel, by decide +kernel, ?_⟩
  rw [test_wrapKey, show slice unwrapB 8 40 = wrapped0 by decide +kernel]
  exact test_unwraps

theorem test_keyWrap : (secUp.slot 168).engine = 64 ∧ tenantSlot 168 = true ∧ tenantSlot 255 = true
    ∧ goes (.keyWrap 7 (vendorReq 3 [168])) secUp (fun t => t.out.length == 1) = true
    ∧ goes (.keyWrap 7 (vendorReq 3 [169])) secUp (fun t => t.out.map rspBody == [rspBody (vendorRsp .mctp 3 stSecNoExport [])]) = true
    ∧ goes (.keyZeroise 7 (vendorReq 4 [168])) secUp (fun t => !(t.slot 168).valid && (t.slot 169).valid && t.out.map rspBody == [rspBody (vendorRsp .mctp 4 stOk [])]) = true
    ∧ goes (.keyZeroise 7 (vendorReq 4 [0xFF])) secUp (fun t => !(t.slot 168).valid && !(t.slot 169).valid && (t.slot 1).valid) = true := by decide +kernel

/-- A wrong command byte, reserved byte or length is a field error (R338). -/
theorem test_vendorHeader : ([3, 0, 1, 0, 168] : Bytes) = vendorReq 3 [168]
    ∧ ∀ r ∈ ([[4, 0, 1, 0, 168], [3, 1, 1, 0, 168], [3, 0, 2, 0, 168]] : List Bytes),
      goes (.keyWrap 7 r) secUp (fun t => t.out.map rspBody == [rspBody (vendorRsp .mctp 3 stSecField [])]) = true := by decide +kernel

theorem test_ideKeys : goes (.ideKmKeyProg 7 32 2 true (zeros 40)) secUp (fun t => tfind t.sec.ide 197 == some (7, zeros 32)) = true
    ∧ goes (.ideKmKeyProg 8 32 2 true (zeros 40)) secUp (fun t => t.sec.ide == []) = true := by decide +kernel

/-! ## The Cartouche (R339, R340) -/

/-- The header up to the scrub epoch: version 1, DEPLOYED, seven firmware entries, no round; SET_ID and epoch 0. -/
theorem test_cartouche : ([1, 0, 0, 0] ++ List.replicate 32 0xEE : Bytes).length = 36
    ∧ (secUp.cartouche 1 (List.replicate 32 0xEE)).take 12 = [1, 1, 7, 0, 0, 0, 0, 0, 0, 0, 0, 0]
    ∧ goes (.cartoucheGet 8 (vendorReq 5 ([1, 0, 0, 0] ++ List.replicate 32 0xEE))) { secUp with layout := [] } (fun t => t.out.length == 1 && t.free == 1) = true := by
  decide +kernel

theorem test_cartoucheLog : let s := secUp.setPart 0 { secUp.part 0 with log := [[1], [2], [3]] }
    goes (.cartoucheLog 8 (vendorReq 6 [0, 0, 1, 0])) s (fun t => t.out.map rspBody == [rspBody (vendorRsp (.doe 3) 6 stOk [2, 0, 2, 3])]) = true := by decide +kernel

end Sys2Proof.Tests
end

