-- ==== Sys2Proof/Tests/Power.lean ====
section
/-! SUPPORT. Tests of power, resets, thermal control and the management link. -/

namespace Sys2Proof.Tests

set_option Elab.async false

open Sys2Proof Sys2Proof.Machine

/-- A module whose manifests hold no bytes, in phase `ph`. -/
def pw (ph : Phase) (s : State) : State := { s with pwr := { s.pwr with phase := ph } }

/-! ## Power up (R304, R375 to R379) -/

theorem test_auxGood : let s := { up with now := 9, pwr := { pwrInit with phase := .offHeld, aux12 := false, v54 := false } }
    s.pwr.auxOn = false
    ∧ goes .auxGood s (fun t => t.now == 0 && t.pwr.phase == .auxOnly && t.pwr.aux12 && t.pwr.lastStart == 0) = true := by decide +kernel

/-- A module at its start event, with image `im`. -/
def strapUp (im : Nat) : State := { pw .auxOnly up with now := 5, fw := { up.fw with image := im, slotB := 3 } }

/-- BOOT 2, slot ID 0x15, lifecycle 1. -/
theorem test_straps : (strapUp 0).pwr.latched = false ∧ (strapUp 0).pwr.auxOn = true
    ∧ goes (.strapLatch 0x156) (strapUp 0) (fun t => t.pwr.latched && t.pwr.boot == 2 && t.pwr.slotId == 0x15 && t.pwr.lc == 1 && t.pwr.rom
      && t.now == 10000000 && t.sec == (strapUp 0).sec) = true := by decide +kernel

/-- A manifest of zeros is signed under no key. -/
theorem manSigned_nil : manSigned [] = false := by
  have h : ∀ key d, ecdsaVerify key d (zeros 96) = false := by
    intro key d
    simp only [ecdsaVerify]
    split
    · rfl
    · rw [if_neg (by decide +kernel)]
  rw [manSigned, show slice ([] : Bytes) 960 96 = zeros 96 by decide +kernel]
  exact h _ _

/-- No slot verifies: the Thimble stays in ROM (R357). One that does rests on the firmware key, which is open. -/
theorem test_romStays : (strapUp 0).bootSlot = none := by
  simp [State.bootSlot, State.bootable, strapUp, pw, up, Fw.manIn, manSigned_nil]

theorem test_rails : let s := { pw .auxOnly up with pwr := { (pw .auxOnly up).pwr with latched := true, inlet := 45 } }
    s.fw.bootOk = true ∧
    goes .mainRailsEnable s (fun t => t.pwr.phase == .sequence && !t.pwr.mainOk) = true
    ∧ gives .mainRailsEnable { s with pwr := { s.pwr with inlet := 46 } } { s with pwr := { s.pwr with inlet := 46 } } = true
    ∧ goes .mainGood { pw .sequence up with now := 7 } (fun t => t.pwr.mainOk && t.pwr.stepAt == 7) = true := by decide +kernel

/-- A tenant switch that power loss met is repeated; an open round aborts. -/
theorem test_runEntry : let s := pw .sequence { up with
      tierB := [(3, 1)], rounds := [(5, { roundInit with st := .opened })], sec := { sec0 with pending := true, epoch := 4 }
      pwr := { up.pwr with mainOk := true, stepAt := 7 } }
    goes (.runEntry [] []) s (fun t => t.pwr.phase == .run && t.now == 10000007 && t.tierB == [] && t.fw.load == 1
      && !(t.round 5).st.running && t.flc.st == 2 && t.pwr.dwell == some 10000007 && t.sec.epoch == 5) = true
    ∧ goes .selvageDwellEnd { up with pwr := { up.pwr with dwell := some 7 } } (fun t => t.pwr.dwell == none && t.now == 1000007) = true := by
  decide +kernel

/-! ## AUX power (R304, R311, R375) -/

theorem test_auxSource : let both := { up with pwr := { up.pwr with aux54 := true } }
    goes (.auxSourceLoss true) up (fun t => !t.pwr.aux12 && t.pwr.aux54 && tget 0 t.evSeq srcPower == 1) = true
    ∧ goes (.auxSourceLoss false) both (fun t => !t.pwr.aux54 && !t.pwr.v54 && tget 0 t.evSeq srcPower == 1) = true
    ∧ goes (.auxSourceLoss true) both (fun t => !t.pwr.aux12 && tget 0 t.evSeq srcPower == 0) = true := by decide +kernel

theorem test_auxLoss : let s := pw .auxOnly { secUp with
      layout := zeros 64, tierA := [(1, 1)], mrd := { mrdInit with st := 2, marks := [(0, plainMark 5 6 0 0 1)] } }
    goes .auxPowerLoss s (fun t => t.pwr.phase == .offHeld && !t.pwr.auxOn && t.tierA == [] && t.mrd.marks == [] && t.mrd.st == 0
      && t.sec.slots == [] && t.sec.tenantId == some (zeros 48) && t.layout == zeros 64) = true := by decide +kernel

/-! ## Power fail and MOD_RESET_N (R240, R241, R376, R378, R382, R383) -/

def dump0 : HoldDump := ⟨3, 100, false⟩

/-- In HOLDUP, with 54 V or without. -/
def hold (v54 : Bool) : State := { pw .holdup secUp with pwr := { (pw .holdup secUp).pwr with dump := some dump0, v54 := v54, selfRst := true } }

theorem test_powerFail : (∀ c ∈ [Instr.pwrFailNAssert, .undervoltage54v],
      goes c (pw .sequence up) (fun t => t.pwr.phase == .auxOnly && !t.pwr.v54) = true
      ∧ goes c { secUp with now := 8 } (fun t => t.pwr.phase == .holdup && t.pwr.dump == some ⟨8, secUp.flc.energy, true⟩) = true
      ∧ goes c (hold true) (fun t => t.pwr.dump == some { dump0 with fromBank := true } && !t.pwr.v54) = true) := by decide +kernel

theorem test_modReset : let s := { secUp with now := 8 }
    s.pwr.rstLow = none
    ∧ goes (.modResetNAssert 1000) (pw .auxOnly s) (fun t => t.pwr.phase == .offHeld && t.pwr.rstLow == some 8 && t.sec.slots == []) = true
    ∧ goes (.modResetNAssert 1000) s (fun t => t.pwr.phase == .holdup && t.pwr.dump.isSome && t.pwr.rstLow == some 8) = true
    ∧ goes (.modResetNAssert 1000) (hold true) (fun t => t.pwr.phase == .holdup && t.pwr.rstLow == some 0) = true
    ∧ gives (.modResetNAssert 99) up up = true := by decide +kernel

theorem test_dumpEnd : goes (.dumpEnd [] 0) (hold false) (fun t => t.pwr.phase == .offHeld && t.pwr.dumpDone && t.pwr.keysClr && t.sec.slots == []) = true
    ∧ goes (.dumpEnd [] 0) (hold true) (fun t => t.pwr.phase == .auxOnly && t.pwr.lastStart == 4 && t.sec.slots == []) = true := by decide +kernel

/-- OFF_HELD after a dump; MOD_RESET_N low since 11, or high. -/
def held (low : Option Nat) : State := pw .offHeld { up with pwr := { up.pwr with dumpDone := true, rstLow := low, v54 := true } }

theorem test_held : goes .v54Return (held none) (fun t => t.pwr.phase == .auxOnly && t.pwr.lastStart == 2) = true
    ∧ goes .v54Return (held (some 11)) (fun t => t.pwr.phase == .offHeld && t.pwr.v54) = true
    ∧ goes .modResetNRelease (held (some 11)) (fun t => t.pwr.phase == .auxOnly && t.pwr.lastStart == 1 && t.pwr.rstLow == none) = true
    ∧ goes .resetHeldTimeout (held (some 11)) (fun t => t.pwr.reset == 1 && t.now == 2000000011) = true
    ∧ goes .resetStuckTimeout (held (some 11)) (fun t => t.pwr.reset == 2 && t.now == 60000000011) = true := by decide +kernel

/-! ## Thermal control (R386 to R388) -/

theorem test_thermal : let hot := { up with pwr := { up.pwr with alert := true, junction := 100 } }
    up.rails = true ∧ up.pwr.alert = false
    ∧ goes (.thermalAlert 100 30) up (fun t => t.pwr.alert && t.pwr.junction == 100 && tget 0 t.evSeq srcPower == 1) = true
    ∧ goes (.thermalAlert 99 44) up (fun t => !t.pwr.alert && t.pwr.inlet == 44) = true
    ∧ goes .throttleStepDown hot (fun t => t.pwr.ceiling == 1825 && t.pwr.clock == 1850) = true
    ∧ goes .throttleStepDown { hot with pwr := { hot.pwr with ceiling := 940 } } (fun t => t.pwr.ceiling == 925) = true
    ∧ gives .throttleStepDown { hot with pwr := { hot.pwr with junction := 99 } } { hot with pwr := { hot.pwr with junction := 99 } } = true
    ∧ goes (.throttleStepUp 94 42) { hot with pwr := { hot.pwr with ceiling := 1835 } } (fun t => !t.pwr.alert && t.pwr.ceiling == 1850) = true
    ∧ goes (.thermalTrip 110 30) up (fun t => t.pwr.phase == .holdup && t.pwr.tripped) = true
    ∧ goes (.thermalTrip 80 60) (pw .auxOnly up) (fun t => t.pwr.phase == .offHeld && t.pwr.tripped) = true := by decide +kernel

theorem test_trip : let s := fun j => { held (some 11) with pwr := { (held (some 11)).pwr with tripped := true, tripHold := true, junction := j } }
    (s 60).cool = false ∧ (s 59).cool = true
    ∧ goes .modResetNRelease (s 60) (fun t => t.pwr.phase == .offHeld && t.pwr.tripHold) = true
    ∧ goes .modResetNRelease (s 59) (fun t => t.pwr.phase == .auxOnly && t.pwr.tripped && !t.pwr.tripHold && t.pwr.lastStart == 3) = true := by decide +kernel

/-! ## The management link (R389 to R391) -/

theorem test_health : up.pwr.auxOn = true ∧ (up.health 0).isSome = true ∧ up.health 4 = none
    ∧ goes (.mgmtHealthRead 0x680000) up (fun t => t.out == [.mgmt stOk (leBytes 4 up.fwStat)]) = true
    ∧ goes (.mgmtHealthRead 4) up (fun t => t.out == [.mgmt mgmtRefused []]) = true := by decide +kernel

/-- OPERATOR_KEY is the base point: the private scalar is 1. -/
def opUp : State := { secUp with sec := { secUp.sec with opKey := some (ecEncode (ecGx, ecGy)), seqFloor := 6 } }

/-- An envelope of SEQ 7 signed with the scalar 1 and the nonce 1. -/
def envOf (request : Bytes) : Envelope :=
  ⟨7, beBytes 48 (ecGx % ecN) ++ beBytes 48 ((beNat (sha384 (ascii "LLY-MGMT" ++ leBytes 8 7 ++ request)) + ecGx) % ecN), request⟩

def credEnv : Envelope := envOf (desc 0x96 [] ++ ecEncode (ecGx, ecGy))
def switchEnv : Envelope := envOf (desc 0x91 [])
def resetEnv : Envelope := envOf (desc 0xF0 [])
def dumpEnv : Envelope := envOf (desc 0x95 [(32, 4, 16)])

theorem test_envelope : opUp.envelopeOk switchEnv = true ∧ byteAt switchEnv.request 0 = 0x91 := by decide +kernel

theorem test_envelopeCred : opUp.envelopeOk credEnv = true ∧ byteAt credEnv.request 0 = 0x96
    ∧ (ecParse (slice (credEnv.request.drop 64) 0 97)).isSome = true := by decide +kernel

theorem test_envelopeRefused : opUp.thimbleUp = true ∧ opUp.sec.lifecycle ≠ 3
    ∧ opUp.envelopeOk ⟨7, zeros 96, desc 0x91 []⟩ = false ∧ opUp.envelopeOk ⟨6, switchEnv.signature, switchEnv.request⟩ = false
    ∧ secUp.envelopeOk switchEnv = false
    ∧ goes (.mgmtEnvelopedRequest ⟨7, zeros 96, desc 0x91 []⟩) opUp (fun t => t.out == [.mgmt mgmtRefused []] && t.sec == opUp.sec) = true := by
  decide +kernel

theorem test_mgmtReset : byteAt resetEnv.request 0 = 0xF0
    ∧ goes (.mgmtResetAction resetEnv) opUp (fun t => t.pwr.phase == .holdup && t.pwr.rstRel && t.sec.seqFloor == 7
      && t.out == [.mgmt stOk []]) = true
    ∧ goes (.mgmtResetAction ⟨7, zeros 96, desc 0xF0 []⟩) opUp (fun t => t.pwr.phase == .run && t.out == [.mgmt mgmtRefused []]) = true := by
  decide +kernel

/-- In FAULT_SECURE a dump is read through an envelope, and nothing else but the reset runs (R3, notes/assumptions/82.md). -/
theorem test_mgmtDump : let s := { opUp with sec := { opUp.sec with latch := true }, fw := { opUp.fw with dump := some dump1 } }
    s.sec.lifecycle = 2 ∧ byteAt dumpEnv.request 0 = 0x95 ∧ byteAt dumpEnv.request 8 = 0 ∧ dumpFieldOk (slice dumpEnv.request 0 64) = true
    ∧ goes (.mgmtEnvelopedRequest dumpEnv) s (fun t => t.sec.seqFloor == 7 && t.out.length == 1) = true
    ∧ goes (.mgmtEnvelopedRequest ⟨7, zeros 96, desc 0x91 []⟩) s (fun t => t.out == [.mgmt mgmtRefused []]) = true := by decide +kernel

/-- With the envelope verified, the switch starts (R344, R391). -/
theorem test_mgmtSwitch : goes (.mgmtEnvelopedRequest switchEnv) opUp (fun t => t.sec.seqFloor == 7 && t.sec.pending && t.sec.slots == []
    && t.out.length != 0) = true := by decide +kernel

end Sys2Proof.Tests
end

