-- ==== Sys2Proof/Tests/Rounds.lean ====
section
/-! SUPPORT. Tests of aggregation rounds, share-sums and the ingest path. -/

namespace Sys2Proof.Tests

set_option Elab.async false

open Sys2Proof Sys2Proof.Machine

/-! ## Policies -/

/-- A tenant's attested session and a random bit generator in partition 0; function 1 has rings. -/
def agg0 : State := { ringed 1 up0 with
  sec := { up0.sec with sessions := [⟨1, .doe 1, true, true, 0, 0, []⟩] }
  parts := [(0, { partInit with cfg := cfg0, drbg := some ⟨zeros 32, 0, 1⟩ })] }

/-- The policy of R97: a time in ns as seconds and nanoseconds. -/
def polBytes (committee threshold lambda minCohort slots vlen sigma ta tc ts tr : Nat) (digest : Bytes) : Bytes :=
  leBytes 4 0xAB ++ [0x0C, 3] ++ leBytes 1 committee ++ leBytes 1 threshold ++ leBytes 2 lambda ++ zeros 2 ++ leBytes 4 slots
    ++ leBytes 4 minCohort ++ leBytes 4 vlen ++ leBytes 4 sigma ++ zeros 4 ++ time10 ta ++ time10 tc ++ time10 ts ++ time10 tr
    ++ zeros 8 ++ digest

/-- Minimal policy: ADMIT_CLOSE 10 ms after acceptance, RELEASE 1 s after SEAL. -/
def pol0 : Bytes := polBytes 2 2 512 2 2 1 0 10000000 10000000 10000000 1010000000 (zeros 48)

def openDesc (acc map : Nat) : Bytes := desc 0x30 [(8, 1, 1), (16, 8, 0x9000), (24, 8, acc), (32, 8, map)]

theorem test_roundOpen : let d := openDesc (at0 0 0) (at0 1 0)
    let o := opOf 1 d
    let s := wait 1 d agg0
    let pol := (policyOf pol0).getD policyInit
    let x : Round := { roundInit with openOp := some 7, policy := pol0, pol := pol, accBase := 0, mapBase := 0 }
    Waits s 0x30 7 o ∧ o.round = 1 ∧ pol0.length = 128 ∧ s.openStatus 1 d = stOk ∧ policyOf pol0 = some pol
    ∧ s.policyStatus 1 o.aux x pol0 = stOk ∧ s.openStatus 1 (openDesc (at0 0 64) (at0 1 0)) = stAggAddress
    ∧ goes (.roundOpen 7 pol0) s (fun t => (t.round 1).st == .created && (t.round 1).pol == pol && (t.slot 105).usable engShc 0
      && t.mrd.marks.map (fun e => (e.1, e.2.action, e.2.time)) ==
        [(0, 1, 10000000), (1, 2, 10000000), (2, 3, 10000000), (3, 4, 1010000000)]) = true := by decide +kernel

theorem test_roundZeroing : let s := { agg0 with
      rounds := [(1, { roundInit with st := .created, openOp := some 7, accBase := 65536, pol := { policyInit with vlen := 1, slots := 1 } })]
      ops := [(7, { opOf 1 (openDesc 0 0) with phase := .running })], tierA := [(65535, 1), (65536, 1), (131071, 1), (131072, 1)] }
    (s.round (2 * 0 + 1)).st = .created ∧ (s.round 1).openOp = some 7
    ∧ goes (.roundZeroingDone 0 1) s (fun t => (t.round 1).st == .opened && t.tierA == [(65535, 1), (131072, 1)] && t.op 7 == none) = true := by
  decide +kernel

/-! ## Roster (R126) -/

def gPoint : Bytes := ecEncode (ecGx, ecGy)

def roster2 : Bytes := leBytes 1 1 ++ zeros 2 ++ gPoint ++ leBytes 1 2 ++ zeros 2 ++ gPoint

def rosterPol : Policy := { policyInit with committee := 2, threshold := 2, lambda := 2, digest := sha384 roster2 }

theorem test_rosterOk : rosterOk rosterPol (slice roster2 0 200) = true := by decide +kernel

theorem test_rosterBad : rosterOk rosterPol (slice (zeros 200) 0 200) = false := by decide +kernel

theorem test_roundRoster : let d := desc 0x35 [(8, 1, 0), (16, 8, 0x9000), (24, 4, 200)]
    let s := wait 1 d { agg0 with rounds := [(0, { roundInit with st := .sealed, pol := rosterPol })] }
    Waits s 0x35 7 (opOf 1 d) ∧ (s.round 0).roster = none ∧ le d 24 4 = 100 * (s.round 0).pol.committee ∧ s.reachable 1 = true
    ∧ goes (.roundRoster 7 (zeros 200)) s (fun t => t == s.finish 7 stShcRoster) = true := by decide +kernel

/-! ## Abort, status, free (R114 to R119) -/

theorem test_roundAbort : let d := desc 0x31 [(8, 1, 0)]
    let s := wait 1 d { agg0 with rounds := [(0, { roundInit with st := .ready, seed := [1], pol := { policyInit with tRelease := 1 } })] }
    Waits s 0x31 7 (opOf 1 d) ∧ (s.round 0).st.running = true ∧ (opOf 1 d).aux < (s.round 0).pol.tRelease
    ∧ goes (.roundAbort 7) s (fun t => (t.round 0).st == .aborted && (t.round 0).cause == 1 && (t.round 0).seed == []) = true := by
  decide +kernel

/-- Client 0 admitted with 1 of 2 segments, client 1 absent, client 2 admitted whole. -/
def mapRound (st : RState) : Round :=
  { roundInit with st := st, cohort := 2, incomplete := 1, pol := { policyInit with slots := 3, vlen := 16385, minCohort := 2, tAdmit := 5, tSeal := 10, tRelease := 20 } }

def mapUp (st : RState) : State := { agg0 with
  rounds := [(0, mapRound st)]
  tierB := wrBytes 0 (leBytes 8 (Client.word ⟨1, 1, 9⟩) ++ zeros 8 ++ leBytes 8 (Client.word ⟨1, 2, 7⟩)) [] }

theorem test_roundStatus : let d := desc 0x32 [(8, 1, 0), (9, 1, 2), (16, 8, 0x9000)]
    let s := wait 1 d (mapUp .sealed)
    Waits s 0x32 7 (opOf 1 d) ∧ listOk 2 .sealed = true ∧ listOk 1 .sealed = true ∧ listOk 1 .unmasking = false
    ∧ goes (.roundStatus 7) s (fun t => t.out.headD (.msix 0 0) == .hostWrite 1 0x9000 ((mapRound .sealed).statusBlock ++ [5])) = true
    ∧ s.incompleteMap 0 = [1] := by decide +kernel

theorem test_roundFree : let d := desc 0x33 [(8, 1, 0)]
    let s := wait 1 d (mapUp .aborted)
    Waits s 0x33 7 (opOf 1 d) ∧ (s.round 0).freeing = false
    ∧ goes (.roundFree 7) s (fun t => (t.round 0).freeing && (t.round 0).freeOp == some 7
      && goes (.roundFreeScrubDone 0 0) t (fun u => u.round 0 == roundInit && u.tierB == [] && u.op 7 == none)) = true := by
  decide +kernel

/-! ## Marks (R102 to R113) -/

/-- An armed mark of round 0 at time 50. -/
def marked (action : Nat) (s : State) : State :=
  { s with mrd := { mrdInit with marks := [(4, { plainMark 50 action 0 0 0 with st := .armed })] } }

theorem test_marks : let m := fun a => { plainMark 50 a 0 0 0 with st := .armed }
    (marked 1 (mapUp .opened)).roundMark 0 0 1 = some (4, m 1) ∧ (marked 1 (mapUp .opened)).markNext (m 1) = true
    ∧ goes (.admitClose 0 0) (marked 1 (mapUp .opened)) (fun t => (t.round 0).st == .closed && t.now == 50 && t.mrd.marks == []) = true
    ∧ goes (.admitClose 0 0) (marked 1 (mapUp .created)) (fun t => (t.round 0).st == .aborted && (t.round 0).cause == causeOpenLate) = true
    ∧ goes (.complete 0 0) (marked 2 (mapUp .closed)) (fun t => (t.round 0).st == .completing) = true
    ∧ goes (.seal 0 0) (marked 3 (mapUp .completing)) (fun t => (t.round 0).draining) = true := by decide +kernel

def draining0 (cohort inc : Nat) : State :=
  let x := { mapRound .completing with draining := true, cohort := cohort, incomplete := inc }
  { mapUp .completing with rounds := [(0, x)] }

theorem test_sealDrain : (draining0 2 0).ingestBefore 0 10 = false ∧ (draining0 2 0).recordAdds 0 = false
    ∧ goes (.sealDrainEnd 0 0) (draining0 2 0) (fun t => (t.round 0).st == .sealed && (t.round 0).digest == sha384 [5]
      && (t.round 0).collOpen) = true
    ∧ goes (.sealDrainEnd 0 0) (draining0 1 0) (fun t => (t.round 0).cause == causeCohortSmall) = true
    ∧ goes (.sealDrainEnd 0 0) (draining0 2 1) (fun t => (t.round 0).cause == causeIncompleteClient) = true := by decide +kernel

theorem test_release : goes (.release 0 0) (marked 4 (mapUp .ready)) (fun t => (t.round 0).st == .released) = true
    ∧ (mapRound .ready).pol.minCohort ≤ (mapRound .ready).cohort
    ∧ goes (.release 0 0) (marked 4 { mapUp .ready with rounds := [(0, { mapRound .ready with cohort := 1 })] }) (fun t =>
      (t.round 0).cause == causeCohortSmall) = true
    ∧ goes (.release 0 0) (marked 4 (mapUp .sealed)) (fun t => (t.round 0).cause == causeSharesShort) = true
    ∧ goes (.release 0 0) (marked 4 (mapUp .unmasking)) (fun t => (t.round 0).cause == causeUnmaskLate) = true := by decide +kernel

def unmask0 (sigma : Nat) : State :=
  let x := { mapRound .unmasking with unmask := .expanding, pol := { policyInit with vlen := 2, sigma := sigma } }
  { mapUp .unmasking with rounds := [(0, x)] }

theorem test_shardsConfirmed : (unmask0 0).expanded 0 = true
    ∧ goes (.roundShardsConfirmed 0 0) (unmask0 0) (fun t => (t.round 0).st == .ready && (t.round 0).unmask == .done) = true
    ∧ goes (.roundShardsConfirmed 0 0) (unmask0 3) (fun t => (t.round 0).unmask == .noise
      && (tfind t.xfers 0).map (fun x => x.rest.map (·.1)) == some [0, 1]) = true := by decide +kernel

/-! ## Share-sums (R132 to R137) -/

def sumHdr (member : Nat) : Bytes := [1, BitVec.ofNat 8 member] ++ leBytes 2 2 ++ zeros 4 ++ zeros 48 ++ zeros 104

def shareRound : Round := { roundInit with st := .sealed, collOpen := true, roster := some roster2, pol := rosterPol }

theorem test_shareSum : let d := desc 0x34 [(8, 1, 0), (16, 8, 0x9000), (24, 4, 192)]
    let s := wait 1 d { agg0 with rounds := [(0, shareRound)] }
    let s1 := { s with rounds := [(0, { shareRound with staged := [⟨1, 3, sumHdr 1⟩] })] }
    Waits s 0x34 7 (opOf 1 d) ∧ sumState shareRound 192 = stOk ∧ sumHeader shareRound (slice (sumHdr 2) 0 160) = stOk
    ∧ sumHeader shareRound (slice (sumHdr 3) 0 160) = stShcMember
    ∧ goes (.shareSum 7 (sumHdr 1)) s (fun t => (t.round 0).staged.length == 1 && (t.round 0).thrAt == none && (t.round 0).collOpen) = true
    ∧ goes (.shareSum 7 (sumHdr 2)) s1 (fun t => (t.round 0).thrAt == some 0 && !(t.round 0).collOpen && (t.round 0).wants) = true
    ∧ goes (.shareSum 7 (sumHdr 3)) s (fun t => (t.round 0).rejected == 1 && t.op 7 == none) = true := by decide +kernel

theorem test_collectionTimeout : let s := { agg0 with rounds := [(0, { shareRound with thrAt := some 5 })] }
    goes (.shareCollectionTimeout 0 0) s (fun t => t.now == 200000005 && !(t.round 0).collOpen && (t.round 0).wants) = true := by
  decide +kernel

/-- A staged share-sum that does not open: collection reopens. -/
theorem test_serveRejected : let e : Staged := ⟨1, 7, sumHdr 1⟩
    let s := wait 1 (desc 0x34 []) { agg0 with rounds := [(0, { shareRound with wants := true, staged := [e], accepted := 1 })] }
    s.nextServed = some 0 ∧ (openEnvelope none (s.round 0) e none).1 = none ∧ 0 < (s.round 0).pol.threshold
    ∧ goes (.shareCombinerServe []) s (fun t => (t.round 0).collOpen && (t.round 0).rejected == 1 && t.op 7 == none) = true := by
  decide +kernel

/-- The polynomial 5 + 3x at members 1 and 2 of the committee; a third point off it. -/
theorem test_reconstruct : let x := { shareRound with cohort := 1, pol := { rosterPol with lambda := 1, threshold := 2 } }
    reconstruct x [(2, [11]), (1, [8])] = .inl [5] ∧ reconstruct x [(2, [11]), (1, [8]), (3, [14])] = .inl [5]
    ∧ reconstruct x [(1, [8]), (2, [11]), (3, [15])] = .inr 3 := by decide +kernel

theorem test_interpolate : let cs := [5, 3]
    [1, 255].length = cs.length ∧ [1, 255].Nodup
    ∧ interpolate (fun m => [(cs.mapIdx (fun k a => a * m ^ k)).sum % (2 ^ 61 - 1)]) [1, 255] 0 0 = 5 := by decide +kernel

/-! ## Ingest (R104 to R107, R148, R160, R162) -/

theorem crcBit_lt {c : Nat} (h : c < 2 ^ 32) : crcBit c < 2 ^ 32 := by
  unfold crcBit
  have h1 : c >>> 1 < 2 ^ 32 := by rw [Nat.shiftRight_eq_div_pow]; omega
  split
  · exact Nat.xor_lt_two_pow h1 (by decide)
  · exact h1

theorem crcByte_lt {c : Nat} (b : Byte) (h : c < 2 ^ 32) : crcByte c b < 2 ^ 32 := by
  unfold crcByte
  have hb : b.toNat < 2 ^ 32 := Nat.lt_of_lt_of_le b.isLt (by decide)
  exact crcBit_lt (crcBit_lt (crcBit_lt (crcBit_lt (crcBit_lt (crcBit_lt (crcBit_lt (crcBit_lt
    (Nat.xor_lt_two_pow h hb))))))))

theorem crc32c_lt (bs : Bytes) : crc32c bs < 2 ^ 32 := by
  have h : ∀ (bs : Bytes) (c : Nat), c < 2 ^ 32 → bs.foldl crcByte c < 2 ^ 32 := by
    intro bs
    induction bs with
    | nil => intro c h; exact h
    | cons b bs ih => intro c h; exact ih _ (crcByte_lt b h)
  exact Nat.xor_lt_two_pow (h bs _ (by decide)) (by decide)

/-- A record of 16,384 32-bit elements with header version 1 and CRC field `v`. -/
def recordWith (v : Nat) : Bytes := (1 :: zeros 27) ++ (leBytes 4 v ++ zeros 65536)

theorem recordWith_length (v : Nat) : (recordWith v).length = 65568 := by
  unfold recordWith
  rw [List.length_append, List.length_append, show zeros 65536 = List.replicate 65536 0 from rfl, List.length_replicate,
    show (1 :: zeros 27 : Bytes).length = 28 from rfl, show (leBytes 4 v).length = 4 from rfl]

theorem recordWith_rest (v : Nat) : (recordWith v).take 28 ++ (recordWith v).drop 32 = (1 :: zeros 27) ++ zeros 65536 := by
  unfold recordWith
  rw [List.take_append_of_le_length (by decide), show (32 : Nat) = (1 :: zeros 27 : Bytes).length + 4 from rfl, List.drop_append,
    List.drop_left' (by rfl)]
  rfl

theorem recordWith_crc {v : Nat} (h : v < 2 ^ 32) : le (recordWith v) 28 4 = v := by
  unfold le slice recordWith
  rw [List.drop_left' (by rfl), List.take_left' (by rfl)]
  have h2 : leBytes 4 v ++ zeros (4 - (leBytes 4 v).length) = leBytes 4 v := List.append_nil _
  dsimp only
  rw [h2]
  simp only [leBytes, leNat, BitVec.toNat_ofNat]
  omega

theorem test_ingCrc : ∃ b : Bytes, b.length = 65568 ∧ le b 28 4 ≠ crc32c (b.take 28 ++ b.drop 32) := by
  refine ⟨recordWith ((crc32c ((1 :: zeros 27) ++ zeros 65536) + 1) % 2 ^ 32), recordWith_length _, ?_⟩
  rw [recordWith_rest, recordWith_crc (Nat.mod_lt _ (by decide))]
  have := crc32c_lt ((1 :: zeros 27) ++ zeros 65536)
  omega

theorem test_ingTag : ∃ b : Bytes, b.length = 65568 ∧ le b 28 4 = crc32c (b.take 28 ++ b.drop 32) ∧ byteAt b 0 = 1
    ∧ (recHdrOf b).zeros = true ∧ up0.taggedRound 0 (le b 12 4) = none := by
  refine ⟨recordWith (crc32c ((1 :: zeros 27) ++ zeros 65536)), recordWith_length _, ?_, rfl, rfl, rfl⟩
  rw [recordWith_rest, recordWith_crc (crc32c_lt _)]

theorem test_ingReject : let s := up0.setIng 0 { ingestInit with ien := 4 }
    bit (s.ing 0).ien.toNat ingTag = true ∧ bit (s.ing 0).first3.toNat 0 = false
    ∧ ((s.rejectRec 0 cntIngTag ingTag stIngTag [1, 2, 3, 4]).ing 0).istat = 4
    ∧ ((s.rejectRec 0 cntIngTag ingTag stIngTag [1, 2, 3, 4]).ing 0).first0 = 0x04030201
    ∧ ((s.rejectRec 0 cntIngCrc ingCrc stIngCrc [1, 2, 3, 4]).ing 0).first0 = 0 := by decide +kernel

theorem test_ingCheck : let q : RxQueue := ⟨6, 2, 1, 0, [], 0, none⟩
    let s := { up0 with fab := { fabInit with queues := [(queueKey 0 0, q)] }, ingest := [(0, { ingestInit with queue := [⟨5, [1], 3⟩] })] }
    (s.ing 0).queue = [⟨5, [1], 3⟩] ∧ (s.rxq 0 0).isSome = true
    ∧ goes (.ingestRecordCheck 0 .none) s (fun t => (t.ing 0).queue == [] && (repOf t).counter (some 0) cntIngLength == ⟨1, false⟩
      && (t.rxq 0 0).map (·.free) == some [1]) = true
    ∧ goes (.ingCtlFlush 0) s (fun t => (t.ing 0).queue == [] && (t.rxq 0 0).map (·.free) == some [1]) = true := by decide +kernel

theorem test_ingUnlatch : goes (.ingCtlUnlatch 0) (up0.setIng 0 { ingestInit with first3 := 0x10001 }) (fun t => (t.ing 0).first3 == 0x10000) = true := by
  decide +kernel

/-- One segment of one 32-bit element; client `c`, at bit 8 × c of the presence map that follows the table. -/
def decRound (st : RState) : Round :=
  { roundInit with st := st, cohort := 1, pol := { policyInit with slots := 1, vlen := 1, tAdmit := 5, tSeal := 10 } }

def decUp (c : Client) (present : Nat) : State :=
  { agg0 with rounds := [(0, decRound .completing)], tierB := wrBytes 0 (leBytes 8 c.word ++ leBytes 1 present) [] }

def hdr (retract : Bool) : RecHdr := ⟨1, retract, false, 1, 0, 0, 0, 0, true⟩

theorem test_decide : let s := decUp ⟨0, 0, 0⟩ 0
    (s.client 0 0).st = clientAbsent ∧ (s.decideRec 0 (hdr false) 5 [1, 0, 0, 0]).1 = cntIngNotAdmitted
    ∧ (s.decideRec 0 (hdr false) 10 [1, 0, 0, 0]).1 = cntIngLate
    ∧ (s.decideRec 0 (hdr false) 4 [1, 0, 0, 0]).1 = cntIngAccepted ∧ ((s.decideRec 0 (hdr false) 4 [1, 0, 0, 0]).2.round 0).cohort = 2
    ∧ (tfind (s.decideRec 0 (hdr false) 4 [1, 0, 0, 0]).2.xfers 0).map (·.rest) = some [(0, ⟨1, 0, 0⟩)]
    ∧ ({ s with rounds := [(0, decRound .sealed)] }.decideRec 0 (hdr false) 4 []).1 = cntIngNotOpen
    ∧ ((decUp ⟨2, 0, 0⟩ 0).decideRec 0 (hdr false) 4 []).1 = cntIngWithdrawn
    ∧ ((decUp ⟨1, 0, 0⟩ 0).decideRec 0 (hdr false) 4 []).1 = cntIngAccepted := by decide +kernel

theorem test_retract : let chk := segmentCheck 0 [1, 0, 0, 0]
    (decUp ⟨1, 1, chk⟩ 1).present 0 0 = true ∧ ((decUp ⟨1, 1, chk⟩ 1).client 0 0).segs = 1
    ∧ (((decUp ⟨1, 1, chk⟩ 1).decideRec 0 (hdr true) 4 [1, 0, 0, 0]).2.round 0).cohort = 0
    ∧ (((decUp ⟨1, 1, chk⟩ 1).decideRec 0 (hdr true) 4 [1, 0, 0, 0]).2.round 0).st = .completing
    ∧ (((decUp ⟨1, 1, 0⟩ 1).decideRec 0 (hdr true) 4 [1, 0, 0, 0]).2.round 0).cause = causeRetractMismatch
    ∧ (((decUp ⟨1, 2, 0⟩ 1).decideRec 0 (hdr true) 4 [1, 0, 0, 0]).2.round 0).cohort = 1
    ∧ ((decUp ⟨2, 0, 0⟩ 0).decideRec 0 (hdr true) 4 []).1 = cntIngRetractAbsent := by decide +kernel

end Sys2Proof.Tests
end

