-- ==== Sys2Proof/WellFormed.lean ====
section
/-! DEFINITION. Which commands name instances that the module has: functions 0 to 32 (R247), partitions 0 to 31, Panels
0 to 63, Gate Refresh Units 0 to 15, ports 0 to 7 (Names of spec/00_scope.md), key slots 0 to 255 (R326), jitter sources
0 to 63 (R346), round slots 0 and 1 (R95), tier 0 for A and 1 for B; and which byte strings have the length their rule
gives. A command that is not well formed still runs: it finds no such instance and changes nothing. -/

namespace Sys2Proof

/-- A function of the host interface: 0 the PF, 1 to 32 the VFs. -/
def okFn (fn : Nat) : Bool := decide (fn ≤ 32)

/-- A partition. -/
def okPart (p : Nat) : Bool := decide (p < 32)

/-- A round slot of a partition. -/
def okRound (p slot : Nat) : Bool := decide (p < 32) && decide (slot < 2)

/-- A Panel. -/
def okPanel (n : Nat) : Bool := decide (n < 64)

/-- A port. -/
def okPort (k : Nat) : Bool := decide (k < 8)

/-- The carrier of a session. -/
def okCarrier : Carrier → Bool
  | .doe fn => okFn fn
  | .mctp => true

/-- A packet: its port, the tag of AES-256-GCM and a payload of at most 4,096 bytes (R279). -/
def okPacket (pkt : Packet) : Bool := okPort pkt.port && (pkt.tag.length == 16) && decide (pkt.body.length ≤ 4096)

/-- The instances that a command names exist, and its byte strings have their rule's lengths. -/
def Instr.wf : Instr → Bool
  | .registerWrite fn off _ => okFn fn && decide (off % 4 = 0)
  | .badAccessWidth fn _ width _ => okFn fn && decide (width ≠ 32)
  | .loReadLatch fn off => okFn fn && decide (off % 4 = 0)
  | .debugViewWrite off _ => decide (0x00800000 ≤ off)
  | .counterOvfClear fn idx => okFn fn && decide (idx < 51)
  | .cntCtlClearAll fn | .ringCreate fn | .ringDelete fn | .ringDeleteDone fn | .descriptorDispatch fn
  | .coalesceTimerExpiry fn | .eventVectorHoldoffEnd fn | .heartbeatExpiry fn | .busMasterEnableClear fn
  | .d3hotEntry fn | .hifHeldStatClear fn | .memErrInfoClear fn | .doeAbort fn => okFn fn
  | .hifSqTailWrite fn _ | .hifCqHeadWrite fn _ | .hifEqHeadWrite fn _ | .hifHeartbeat fn _ | .hifHbCfgWrite fn _ =>
    okFn fn
  | .descriptorFetchDone fn descs => okFn fn && descs.all (fun d => d.length == 64)
  | .vfFlr p | .tdispError p | .nonIdeRequest p | .ingCtlFlush p | .ingCtlUnlatch p | .partitionBlankDone p
  | .tdispLockInterface p | .tdispStartInterface p | .tdispStopInterface p => okPart p
  | .ingestRecordCheck p _ => okPart p
  | .roundZeroingDone p slot | .roundFreeScrubDone p slot | .admitClose p slot | .complete p slot | .seal p slot
  | .sealDrainEnd p slot | .release p slot | .shareCollectionTimeout p slot | .roundShardsConfirmed p slot =>
    okRound p slot
  | .seamRegionClearDone p region => okPart p && decide (region < 1024)
  | .seamCloseDrainDone p region _ => okPart p && decide (region < 1024)
  | .loadAct panel _ | .streamW panel _ | .epilogue panel _ => okPanel panel
  | .pass panel err => okPanel panel && (match err with | some e => decide (e.array < 64) | none => true)
  | .passDone panel | .promote panel | .store panel | .reduceSeam panel | .sync panel =>
    okPanel panel
  | .spillPageFetchDone panel _ => okPanel panel
  | .tileCommandRetire panel _ => okPanel panel
  | .roundOpen _ policy => policy.length == 128
  | .shareSum _ header => header.length == 160
  | .gruBatchDone gru _ => decide (gru < 16)
  | .memPatrolTick tier _ _ => decide (tier < 2)
  | .flashPatrolTick die _ _ _ | .wearMove die _ | .flashEraseDone die _ _ => decide (die < 64)
  | .pxtTransmit _ port | .fabPortDown port | .fabPortUp port => okPort port
  | .pxtSendReceive pkt _ | .pxtWriteReceive pkt | .pxtReadRespReceive pkt | .pxtAckReceive pkt | .pxtNackReceive pkt
  | .pxtFlushReceive pkt | .pxtFlushRespReceive pkt | .pxtErrorReceive pkt => okPacket pkt
  | .pxtReadReqReceive pkt _ => okPacket pkt
  | .ptpSyncReceive src _ _ | .ptpAnnounceReceive src _ | .ptpDelayRespReceive src _ | .ptpFollowUpReceive src _ =>
    okPort src.src.port
  | .keySlotIntegrityFault slot => decide (slot < 256)
  | .rngBlockTest source bits => decide (source < 64) && (bits.length == 128)
  | .rngSourceRestartDone source => decide (source < 64)
  | .spdmGetCertificate carrier | .spdmGetMeasurements carrier => okCarrier carrier
  | .spdmKeyExchange carrier _ exch => okCarrier carrier && (exch.length == 96)
  | .spdmChallenge carrier nonce => okCarrier carrier && (nonce.length == 32)
  | .spdmFinish _ root => (match root with | some d => d.length == 48 | none => true)
  | .ideKmKeyProg _ stream substream _ key => decide (stream < 33) && decide (substream < 3) && (key.length == 32)
  | .mgmtCred _ key => key.length == 97
  | .coreFault core _ | .watchdogExpiry core _ => decide (core ≤ 84)
  | .mgmtEnvelopedRequest env | .mgmtResetAction env => env.signature.length == 96
  | .linkDown | .pfFlr | .hotReset | .perstNAssert | .perstNRelease | .gateExtentAdmit | .holdupEnergyMeasure _
  | .bankCapacitanceTest | .bankTestDone _ | .ptpDelayReqTimer | .ptpAnnounceTimeout | .ppsInEdge | .ppsMissingTimeout
  | .ppsOutSecond | .mrdCfgWrite _ | .tenantSwitchScrubDone _ | .meshBreach | .glitchDetect | .keyMaskRefresh
  | .rngStartupTestDone _ | .rngRawRead | .rngRawWrite _ | .rngCtlWrite _ | .mgmtLinkReset | .fwConfirmWrite _
  | .slotCopyDone | .crashDumpCaptureDone | .loadWaitTimeout | .fwMboxGo | .mgmtImageTransferDone _
  | .mgmtHealthRead _ | .auxGood | .auxSourceLoss _ | .strapLatch _ | .mainRailsEnable | .mainGood
  | .runEntry _ _ | .pwrFailNAssert | .undervoltage54v | .dumpEnd _ _ | .v54Return | .modResetNAssert _ | .modResetNRelease
  | .resetHeldTimeout | .resetStuckTimeout | .thermalAlert _ _ | .throttleStepDown | .throttleStepUp _ _
  | .thermalTrip _ _ | .auxPowerLoss | .fusingToDeployed | .chargerFault | .selvageDwellEnd
  | .mailboxBundleReadDone _ | .shareCombinerServe _ => true
  | .nop _ | .dmaIn _ _ | .dmaOut _ _ | .dmaMove _ _ | .hostSeamAdd _ _ | .weightLoad _ _ _ | .weightRelease _
  | .tileRun _ _ | .syncBarrierRelease _ | .seamRegion _ | .seamRegionRelease _ | .seamFinalise _
  | .seamAddendApply _ _ _ | .roundAbort _ | .roundStatus _ | .roundFree _ | .roundRoster _ _ | .gruKeyset _
  | .gruKeysetRelease _ | .gruProgram _ | .gruProgramRelease _ | .gruRun _ | .flashRead _ _ | .flashWrite _ _ _
  | .flashTrim _ | .checkpoint _ _ _ | .ckptRestore _ _ | .flashProgramDone _ _ | .fabSend _ | .fabWrite _ | .fabRead _
  | .fabFlush _ | .fabCancel _ | .fabTriggerArm _ | .fabCounterSet _ | .fabCounterAdd _ | .fabWindowCreate _
  | .fabWindowRevoke _ | .fabRqCreate _ | .fabRqReturn _ | .fabRqDelete _ | .fabPeerSet _ | .fabPeerClear _
  | .fabJobBind _ | .fabJobUnbind _ | .pxtFlushRespSend _ | .placementFailure _ _ _ | .pxtAckTimer _
  | .pxtRetransmitTimeout _ _ | .pxtMessageTimeout _ | .pxtRnrResend _ | .receiveEntryExpiry _ | .windowIdleTimeout _
  | .portsDownTimeout _ | .markSet _ | .markCancel _ | .markList _ | .timeSet _ | .markArmingStart _
  | .markParticipantArmed _ _ _ | .markArmDeadline _ | .dispatchMark _ | .eventMark _ | .modeMark _ | .partitionMark _
  | .firmwareMark _ | .fallbackMark _ | .markRollbackWindowEnd _ _ _ | .partConfig _ _ | .tenantSwitch _
  | .lifecycleRetire _ | .spdmKeyUpdate _ | .spdmHeartbeat _ | .spdmEndSession _ | .spdmHeartbeatExpiry _
  | .keyDeliver _ _ | .keyUnwrap _ _ | .keyWrap _ _ | .keyZeroise _ _ | .cartoucheGet _ _ | .cartoucheLog _ _
  | .fwStage _ _ | .fwActivate _ | .fwDumpRead _ | .fwDumpCapture _ | .dmaTransferDone _ => true

end Sys2Proof
end

