-- ==== Sys2Proof/Tests/Slice0.lean ====
section
/-! SUPPORT. Smoke tests: a command that each check of `Instr.wf` refuses beside one that it accepts, and that a command
naming no instance changes nothing. The witnesses of the statements stand in the other files of this folder. -/

namespace Sys2Proof.Tests

set_option Elab.async false

open Sys2Proof Sys2Proof.Machine

/-- A packet of port `k` whose tag and payload have `t` and `n` bytes. -/
def shaped (k t n : Nat) : Packet := ⟨k, 0, 0, 0, ⟨1, 1, 0, 0, 0, 0, 0, 0, 0, 0, 0, 0, 0, 0, 0, 0⟩, zeros n, zeros t⟩

theorem test_wf_registers : Instr.wf (.registerWrite 32 4 0) = true ∧ Instr.wf (.registerWrite 33 4 0) = false
    ∧ Instr.wf (.registerWrite 0 6 0) = false ∧ Instr.wf (.loReadLatch 0 2) = false ∧ Instr.wf (.loReadLatch 40 0) = false
    ∧ Instr.wf (.badAccessWidth 0 0 32 true) = false ∧ Instr.wf (.badAccessWidth 0 0 16 true) = true
    ∧ Instr.wf (.debugViewWrite 0x7FFFFF 0) = false ∧ Instr.wf (.debugViewWrite 0x800000 0) = true
    ∧ Instr.wf (.counterOvfClear 0 51) = false ∧ Instr.wf (.counterOvfClear 0 50) = true := by decide

theorem test_wf_functions : Instr.wf (.ringCreate 33) = false ∧ Instr.wf (.ringCreate 32) = true
    ∧ Instr.wf (.hifSqTailWrite 33 0) = false ∧ Instr.wf (.hifHbCfgWrite 32 0) = true
    ∧ Instr.wf (.descriptorFetchDone 1 [zeros 63]) = false ∧ Instr.wf (.descriptorFetchDone 1 [zeros 64]) = true := by decide

theorem test_wf_partitions : Instr.wf (.vfFlr 32) = false ∧ Instr.wf (.vfFlr 31) = true ∧ Instr.wf (.ingestRecordCheck 32 .none) = false
    ∧ Instr.wf (.admitClose 0 2) = false ∧ Instr.wf (.admitClose 32 0) = false ∧ Instr.wf (.admitClose 31 1) = true
    ∧ Instr.wf (.seamRegionClearDone 0 1024) = false ∧ Instr.wf (.seamCloseDrainDone 32 0 []) = false := by decide

theorem test_wf_panels : Instr.wf (.loadAct 64 []) = false ∧ Instr.wf (.loadAct 63 []) = true
    ∧ Instr.wf (.pass 0 (some ⟨64, .transient, false, false⟩)) = false ∧ Instr.wf (.pass 64 none) = false
    ∧ Instr.wf (.promote 64) = false ∧ Instr.wf (.spillPageFetchDone 64 []) = false ∧ Instr.wf (.tileCommandRetire 64 0) = false := by
  decide

theorem test_wf_lengths : Instr.wf (.roundOpen 0 (zeros 127)) = false ∧ Instr.wf (.roundOpen 0 (zeros 128)) = true
    ∧ Instr.wf (.shareSum 0 (zeros 159)) = false ∧ Instr.wf (.mgmtCred 0 (zeros 96)) = false
    ∧ Instr.wf (.mgmtEnvelopedRequest ⟨1, zeros 95, []⟩) = false ∧ Instr.wf (.ideKmKeyProg 0 33 0 false (zeros 32)) = false
    ∧ Instr.wf (.ideKmKeyProg 0 0 3 false (zeros 32)) = false ∧ Instr.wf (.ideKmKeyProg 0 0 0 false (zeros 31)) = false
    ∧ Instr.wf (.spdmFinish 0 (some (zeros 47))) = false ∧ Instr.wf (.spdmFinish 0 none) = true
    ∧ Instr.wf (.spdmChallenge .mctp (zeros 31)) = false ∧ Instr.wf (.spdmGetCertificate (.doe 33)) = false := by decide +kernel

theorem test_wf_units : Instr.wf (.gruBatchDone 16 none) = false ∧ Instr.wf (.memPatrolTick 2 0 none) = false
    ∧ Instr.wf (.wearMove 64 0) = false ∧ Instr.wf (.keySlotIntegrityFault 256) = false ∧ Instr.wf (.rngBlockTest 64 (zeros 128)) = false
    ∧ Instr.wf (.rngBlockTest 0 (zeros 127)) = false ∧ Instr.wf (.rngSourceRestartDone 64) = false
    ∧ Instr.wf (.coreFault 85 .transient) = false ∧ Instr.wf (.watchdogExpiry 84 .transient) = true := by decide +kernel

theorem test_wf_packets : Instr.wf (.pxtSendReceive (shaped 8 16 0) none) = false ∧ Instr.wf (.pxtSendReceive (shaped 7 16 0) none) = true
    ∧ Instr.wf (.pxtAckReceive (shaped 0 15 0)) = false ∧ Instr.wf (.pxtReadReqReceive (shaped 0 15 0) []) = false
    ∧ Instr.wf (.fabPortDown 8) = false ∧ Instr.wf (.pxtTransmit 0 8) = false ∧ Instr.wf (.ptpSyncReceive ⟨⟨8, 0⟩, 0, false⟩ 0 false) = false := by decide

theorem test_wf_payload : Instr.wf (.pxtWriteReceive (shaped 0 16 4097)) = false := by decide +kernel

/-- An ill-formed command finds no instance. -/
theorem test_ill_formed_changes_nothing : gives (.ringCreate 33) up0 up0 = true
    ∧ gives (.admitClose 0 2) up0 up0 = true ∧ gives (.promote 64) up0 up0 = true := by decide +kernel

end Sys2Proof.Tests
end

