-- ==== Sys2Proof/Tests/Tile.lean ====
section
/-! SUPPORT. Tests of the tile commands: words written from R57 and R58 to R63, one command each. -/

namespace Sys2Proof.Tests

set_option Elab.async false

open Sys2Proof Sys2Proof.Machine

/-- TILE_RUN of a program of one word at line 0 of tier A with its parameter entry at line 1, on Panel 1. -/
def runDesc : Bytes := desc 0x10 [(8, 8, at0 0 0), (16, 4, 1), (24, 8, 2), (32, 8, at0 0 64)]

theorem test_tileRun : let o := opOf 1 runDesc
    let s := { wait 1 runDesc up0 with tierA := [(7, 0x80), (64, 5)] }
    Waits s 0x10 7 o ∧ s.tileRunStatus 0 o = stOk ∧ o.panels = [1] ∧ s.panelBusy 7 1 = false
    ∧ s.clean 0 0 0 8 ∧ s.clean 0 0 64 32 ∧ zeroAt (s.ptBytes 0 0 64 32) 24 8 = true ∧ (s.part 0).log.length < 4096
    ∧ goes (.tileRun 7 []) s (fun t => (t.panel 1).run == some 7 && (t.panel 1).prog == [0x8000000000000000]
      && (t.panel 1).bases == [5, 0, 0] && (t.part 0).log.length == 1 && (t.panel 0).run == none) = true := by decide +kernel

/-- Panel 0 runs ticket 7. -/
def onPanel (x : Panel) (s : State) : State :=
  { s with
    ops := [(7, { opOf 1 (desc 0x10 [(24, 8, 1)]) with phase := .running })], panels := [(0, { x with run := some 7 })] }

theorem test_settleRun : let s := onPanel { panelInit with ended := true, stopped := some (stTileOpcode, 3) } up0
    (∀ k ∈ (opOf 1 (desc 0x10 [(24, 8, 1)])).panels, (s.panel k).run = some 7 ∧ (s.panel k).done = true)
    ∧ (s.settleRun 7).op 7 = none ∧ ((s.settleRun 7).panel 0).run = none
    ∧ ((s.settleRun 7).fn 1).heldC.map (·.status) = [stTileOpcode] := by decide +kernel

/-! ## Words -/

/-- LOAD_ACT of one RING32 element of one array into set 1; one more word for the source. -/
def wLoad : DWord := BitVec.ofNat 64 (0x1 * 2 ^ 60 + 1 * 2 ^ 54 + 1 * 2 ^ 34 + fmtRing32)

def wStream : DWord := BitVec.ofNat 64 (0x2 * 2 ^ 60 + 1 * 2 ^ 42 + fmtRing32)

def wPass : DWord := BitVec.ofNat 64 (0x3 * 2 ^ 60 + 31 * 2 ^ 55 + 1 * 2 ^ 54)

def wPromote : DWord := BitVec.ofNat 64 (0x4 * 2 ^ 60 + 31 * 2 ^ 55 + 1 * 2 ^ 54)

/-- EPILOGUE to RING32 and to INT8. -/
def wEpi (fmta : Nat) : DWord := BitVec.ofNat 64 (0x5 * 2 ^ 60 + 31 * 2 ^ 55 + fmta)

def wScale : DWord := BitVec.ofNat 64 (0x3F800000 * 2 ^ 32)

def wStore : DWord := BitVec.ofNat 64 (0x6 * 2 ^ 60 + 31 * 2 ^ 55)

def wReduce : DWord := BitVec.ofNat 64 (0x7 * 2 ^ 60 + 31 * 2 ^ 55)

/-- SYNC on every class, with a signal of tag 0x1234. -/
def wSync (barrier : Nat) : DWord := BitVec.ofNat 64 (0x8 * 2 ^ 60 + 15 * 2 ^ 51 + barrier * 2 ^ 50 + 1 * 2 ^ 49 + 0x1234 * 2 ^ 32)

def adr (tier a : Nat) : DWord := BitVec.ofNat 64 (at0 tier a)

def act0 : ActSet := ⟨⟨fmtRing32, 1, [[3]], []⟩, 1, 1, 0, true⟩

def str0 : Stream := ⟨⟨fmtRing32, 1, List.replicate 64 [5], []⟩, 0, false, 0, [], []⟩

def pass0 : PassRec := ⟨1, 31, act0, str0, true, 0⟩

def tile0 : Tile := ⟨31, 1, ⟨fmtRing32, fmtRing32, 0, 0, false⟩, [List.replicate 64 15], [], [], 0, false, false, false, false, 1, false⟩

def pad : DWord := wSync 0

/-! ## Operands (R48, R58) -/

theorem test_loadAct : let s := { onPanel { panelInit with prog := [wLoad, adr 0 64] } up0 with tierA := [(64, 3)] }
    NextTile s 0 1 0 false wLoad [adr 0 64] ∧ loadActFields wLoad.toNat = true ∧ fmtaStatus (field wLoad.toNat 0 8) true = stOk
    ∧ field wLoad.toNat 52 2 = 0 ∧ addrWordStatus ((cmdArgs wLoad [adr 0 64]).drop 1) = stOk
    ∧ s.accStatus 0 (addrOf (at0 0 64)) [(64, 4)] false = stOk ∧ (s.panel 0).flies 1 = false ∧ s.missing 0 0 [] = none
    ∧ s.readable 0 (addrOf (at0 0 64)) [(64, 4)]
    ∧ goes (.loadAct 0 []) s (fun t => (t.panel 0).set1.mat.rows == [[3]] && !(t.panel 0).set1.ready && (t.panel 0).pc == 2
      && (t.panel 0).flies 1
      && goes (.tileCommandRetire 0 0) t (fun u => (u.panel 0).set1.ready || (u.panel 0).run == none)) = true := by decide +kernel

/-- The seed path: chunk 0 of S in every array, column 0. -/
theorem test_loadSeed : let r := { roundInit with st := .unmasking, seed := List.range 128, pol := { policyInit with lambda := 128, vlen := 5 } }
    let s := { up0 with rounds := [(0, r)], panels := [(0, { panelInit with sweeps := [⟨0, [(0, 0)], 0⟩] })] }
    ∃ w ws, NextTile s 0 1 0 true w ws ∧ loadActFields w.toNat = true ∧ fmtaStatus (field w.toNat 0 8) true = stOk
    ∧ (s.panel 0).sweeps = [⟨0, [(0, 0)], 0⟩]
    ∧ goes (.loadAct 0 []) s (fun t => (t.panel 0).set0.mat.rows == List.replicate 64 (List.range 64) && (t.panel 0).pc == 2) = true :=
  ⟨((expansionWords 128 fmtRing32).headD 0), (expansionWords 128 fmtRing32).drop 1, by decide +kernel⟩

theorem test_streamW : let s := { onPanel { panelInit with prog := [wStream, adr 0 64, pad] } up0 with tierA := [(64, 5)] }
    NextTile s 0 2 0 false wStream [adr 0 64, pad] ∧ streamFields wStream.toNat = true ∧ field wStream.toNat 53 2 = 0
    ∧ addrWordStatus ((cmdArgs wStream [adr 0 64, pad]).drop 1) = stOk
    ∧ s.accStatus 0 (addrOf (at0 0 64)) (rowsOf (addrOf (at0 0 64)) 64 4) false = stOk
    ∧ (s.panel 0).goesOn (cmdArgs wStream [adr 0 64, pad]).length
    ∧ goes (.streamW 0 []) s (fun t => (t.panel 0).streams == [str0] && (t.panel 0).pc == 2) = true := by decide +kernel

theorem test_streamLoom : let r := { roundInit with st := .unmasking, pol := { policyInit with lambda := 128, vlen := 5 } }
    let s := { up0 with rounds := [(0, r)], panels := [(0, { panelInit with pc := 2, sweeps := [⟨0, [(0, 0)], 0⟩] })] }
    ∃ w ws, NextTile s 0 2 0 true w ws ∧ streamFields w.toNat = true ∧ fmtaStatus (field w.toNat 0 8) true = stOk
    ∧ (s.panel 0).run = none ∧ s.loom.failed = false ∧ s.loomTurn 0 = true
    ∧ goes (.streamW 0 []) s (fun t => t.loom.busy && t.loom.words == 64 * 5 && (t.panel 0).streams.length == 1) = true :=
  ⟨((expansionWords 128 fmtRing32).getD 2 0), (expansionWords 128 fmtRing32).drop 3, by decide +kernel⟩

/-! ## Passes (R60, R66, R77) -/

theorem test_pass : let s := onPanel { panelInit with prog := [wPass], set1 := act0, streams := [str0] } up0
    NextTile s 0 3 0 false wPass [] ∧ (s.panel 0).streams = [str0] ∧ ((s.panel 0).setOf (field wPass.toNat 54 1)).mat.klen = str0.mat.klen
    ∧ pairOk (fmtOf str0.mat.fmta) (fmtOf ((s.panel 0).setOf (field wPass.toNat 54 1)).mat.fmta) = true
    ∧ ((s.panel 0).setOf (field wPass.toNat 54 1)).ready = true ∧ (∀ y ∈ (s.panel 0).passes, y.done = true)
    ∧ goes (.pass 0 none) s (fun t => (t.panel 0).pass == some 31 && (t.panel 0).streams == []
      && (t.panel 0).passes.map (·.done) == [false]) = true := by decide +kernel

theorem test_passSequence : let s := onPanel { panelInit with prog := [wPass] } up0
    (s.panel 0).streams = [] ∧ (s.panel 0).stopped = none ∧ (s.panel 0).inflight = [] ∧ (s.panel 0).note = []
    ∧ goes (.pass 0 none) s (fun t => t.op 7 == none && (t.panel 0).run == none
      && (t.fn 1).heldC.map (·.status) == [stTileSequence]) = true := by decide +kernel

theorem test_passDone : let s := onPanel { panelInit with prog := [wPass, pad], passes := [{ pass0 with done := false }] } up0
    (s.panel 0).ended = false ∧ (s.panel 0).passes.any (fun y => !y.done) = true
    ∧ goes (.passDone 0) s (fun t => (t.panel 0).passes.map (·.done) == [true]) = true := by decide +kernel

/-- 3 × 5 in each of the 64 rows. -/
theorem test_promote : let s := onPanel { panelInit with prog := [wPromote, pad], passes := [pass0], pass := some 31 } up0
    NextTile s 0 4 0 false wPromote [pad] ∧ (s.panel 0).passes.getLast? = some pass0 ∧ (s.panel 0).pass = some (field wPromote.toNat 55 5)
    ∧ promoteStatus (s.panel 0) wPromote.toNat pass0 = stOk
    ∧ tileBusy (s.panel 0) (field wPromote.toNat 55 5) (tileSlots fmtRing32 (field wPromote.toNat 52 2) 0) = false
    ∧ (s.panel 0).goesOn 1
    ∧ goes (.promote 0) s (fun t => (t.panel 0).tiles == [tile0] && (t.panel 0).passes == []) = true := by decide +kernel

/-- 48-bit saturation of an integer entry, and its bounds. -/
theorem test_entryStep : entryStep fmtInt8 0 false (2 ^ 47 - 1) (.int 1) = (2 ^ 47 - 1, true)
    ∧ entryStep fmtInt8 0 false (wrap 64 (-(2 ^ 47) + 1)) (.int (-1)) = (wrap 64 (-(2 ^ 47)), false)
    ∧ entryStep fmtF61 0 false (2 ^ 61 - 2) (.ring 1) = (0, false) := by decide +kernel

/-! ## Ends of a tile (R61, R62, R63, R88) -/

theorem test_epilogue : let w := wEpi fmtRing32
    let s := onPanel { panelInit with prog := [w, wScale], tiles := [tile0] } up0
    NextTile s 0 5 0 false w [wScale] ∧ (s.panel 0).tiles.find? (fun (t : Tile) => slotsHit t (field w.toNat 55 5) 1) = some tile0
    ∧ epilogueFields w.toNat (field ((cmdArgs w [wScale]).getD 1 0) 32 32) tile0 = true ∧ fmtaStatus (field w.toNat 0 8) false = stOk
    ∧ convOk fmtRing32 (fmtOf (field w.toNat 0 8)) = true ∧ (s.panel 0).flies 5 = false ∧ bit w.toNat 50 = false
    ∧ goes (.epilogue 0 []) s (fun t => (t.panel 0).tiles.map (·.results) == [[List.replicate 64 15]] && (t.panel 0).flies 5) = true := by
  decide +kernel

def done0 : Tile := { tile0 with results := [List.replicate 64 15], resFmta := fmtRing32, resDone := true }

theorem test_store : let s := onPanel { panelInit with prog := [wStore, adr 0 64], tiles := [done0] } up0
    NextTile s 0 6 0 false wStore [adr 0 64] ∧ addrWordStatus ((cmdArgs wStore [adr 0 64]).drop 1) = stOk
    ∧ endBusy (s.panel 0) done0 = false ∧ s.accStatus 0 (addrOf (at0 0 64)) [(64, 256)] true = stOk
    ∧ (State.tileWrite 0 0 (addrOf (at0 0 64)) [(64, packElems fmtRing32 (List.replicate 64 15))]
      (s.usePages 0 0 [] true, [])).2 = []
    ∧ goes (.store 0) s (fun t => t.tierA == (List.range 64).map (fun i => (64 + 4 * i, 15)) && (t.panel 0).flies 6) = true := by
  decide +kernel

def ring32Region : Region := ⟨0, 0, 65, kindRing32, 0, .opened, false, 3, none, none, []⟩

/-- 64 entries from element 1 on: the last one is element 64. -/
theorem test_reduceSeam : let ws := [BitVec.ofNat 64 (9 * 2 ^ 48 + 1), BitVec.ofNat 64 64]
    let s := { onPanel { panelInit with prog := wReduce :: ws, tiles := [tile0] } up0 with regions := [(9, ring32Region)] }
    NextTile s 0 7 0 false wReduce ws ∧ s.region 0 9 = some ring32Region ∧ ring32Region.kind = tileKind tile0
    ∧ (∀ m < 64, 1 + 0 * 64 + m < ring32Region.elems) ∧ s.lockStatus 0 0 0 260 = stOk
    ∧ goes (.reduceSeam 0) s (fun t => (tfind t.xfers 0).map (fun x => (x.rest.length, x.rest.map (·.1))) == some (64, (List.range 64).map (1 + ·))
      && (t.panel 0).flies 7) = true := by decide +kernel

theorem test_sync : let s := onPanel { panelInit with prog := [wSync 0, pad] } up0
    NextTile s 0 8 0 false (wSync 0) [pad] ∧ field (wSync 0).toNat 55 5 = 0 ∧ waitOver (s.panel 0) (field (wSync 0).toNat 51 4) = true
    ∧ (s.panel 0).goesOn 1
    ∧ goes (.sync 0) s (fun t => (t.panel 0).pc == 1 && tget 0 t.evSeq (srcPanel 0) == 1 && (t.fn 1).heldE.map (·.detail) == [[0x34, 0x12]]) = true := by
  decide +kernel

theorem test_barrier : let s := onPanel { panelInit with prog := [wSync 1, pad] } up0
    s.runStopped 0 = false ∧ goes (.sync 0) s (fun t => (t.panel 0).atBarrier && (t.panel 0).pc == 0
      && (t.panel 0).goesOn 1 && bit ((t.panel 0).prog.getD (t.panel 0).pc 0).toNat 50
      && goes (.syncBarrierRelease 7) t (fun u => !(u.panel 0).atBarrier && (u.panel 0).barriers == 1 && (u.panel 0).pc == 1)) = true := by
  decide +kernel

/-- The last command retires: its tile ends and the TILE_RUN completes. -/
theorem test_retire : let s := onPanel { panelInit with prog := [wStore], pc := 1, tiles := [{ done0 with ending := true }], inflight := [⟨6, 0, 31, []⟩] } up0
    (s.panel 0).inflight.find? (fun (j : InFlight) => j.word == 0 && j.opc != 7) = some ⟨6, 0, 31, []⟩ ∧ (s.panel 0).ended = false
    ∧ goes (.tileCommandRetire 0 0) s (fun t => (t.panel 0).tiles == [] && (t.panel 0).inflight == []) = true := by decide +kernel

/-! ## Spilled pages (R52) -/

/-- A scratch space of 23 MiB spills; Panel 0 stalls on page 3. -/
def spillUp (x : Panel) : State :=
  { onPanel { x with stall := some 3 } up0 with parts := [(0, { partInit with cfg := { cfg0 with scratch := 23 } })] }

theorem test_pageFetch : let s := spillUp panelInit
    (s.panel 0).stall = some 3 ∧ s.panelPart 0 = some 0 ∧ (s.panel 0).pages.length < 352
    ∧ s.clean 0 0 (s.spillAddr 0 0 (3 * 65536)) 65536
    ∧ s.spillAddr 0 0 0 = 2 ^ 30 - 2 * 23 * 2 ^ 20 := by decide +kernel

/-- A full store: page 1000 is the least recently used one that nothing uses. -/
theorem test_pageVictim : let s := spillUp { panelInit with pages := (List.range 352).map (fun i => ⟨1000 + i, false⟩), inflight := [⟨1, 0, 0, [1000]⟩] }
    352 ≤ (s.panel 0).pages.length ∧ victim (s.panel 0) = some ⟨1001, false⟩ ∧ (1001 : Nat) ≠ 3 := by decide +kernel

end Sys2Proof.Tests
end

section
/-! Lemmas on number fields, tables and counter pages that the register obligations share. -/

namespace Sys2Proof.Machine

/-! ## Number fields -/

theorem field_eq (v lo n : Nat) : field v lo n = v / 2 ^ lo % 2 ^ n := by
  rw [field, Nat.shiftRight_eq_div_pow]

theorem bit_eq (v k : Nat) : bit v k = decide (v / 2 ^ k % 2 = 1) := by
  rw [bit, field_eq, Nat.pow_one]; rfl

/-! ## Tables -/

theorem tfind_tdelRange {α : Type} (lo hi k : Nat) (t : Tbl α) :
    tfind (tdelRange lo hi t) k = if lo ≤ k ∧ k < hi then none else tfind t k := by
  induction t with
  | nil => simp [tdelRange]
  | cons e t ih =>
    rw [tdelRange, List.filter_cons] at *
    by_cases hk : e.1 = k
    · subst hk
      by_cases h : lo ≤ e.1 ∧ e.1 < hi
      · simpa [h] using ih
      · rw [if_pos (by simp; omega), tfind_cons, if_pos rfl, if_neg h, tfind_cons, if_pos rfl]
    · rw [tfind_cons, if_neg hk, ← ih]
      split
      · rw [tfind_cons, if_neg hk]
      · rfl

theorem tget_tdelRange {α : Type} (d : α) (lo hi k : Nat) (t : Tbl α) :
    tget d (tdelRange lo hi t) k = if lo ≤ k ∧ k < hi then d else tget d t k := by
  rw [tget_eq_tfind, tfind_tdelRange, tget_eq_tfind]; split <;> rfl

/-! ## Counter pages (R404 to R406) -/

/-- A counter set leaves every other counter of its page and of the other pages. -/
theorem Rep.counter_setCounter_ne (r : Rep) {pg pg' : Option Nat} {i k : Nat} (c : Counter) (h : (pg', k) ≠ (pg, i))
    (hi : i < 64) (hk : k < 64) : (r.setCounter pg i c).counter pg' k = r.counter pg' k := by
  cases pg with
  | none =>
    cases pg' with
    | none => exact tget_tset_ne _ _ _ (by simpa using h)
    | some q => rfl
  | some p =>
    cases pg' with
    | none => rfl
    | some q =>
      have hne : q * 64 + k ≠ p * 64 + i := by
        intro he
        have hq : q = p ∧ k = i := by omega
        exact h (by rw [hq.1, hq.2])
      exact tget_tset_ne _ _ _ hne

theorem pageCounters_le (fn : Nat) : pageCounters fn ≤ 64 := by
  unfold pageCounters; split <;> decide

theorem pageOf_zero : pageOf 0 = none := rfl

theorem pageOf_succ {fn : Nat} (h : fn ≠ 0) : pageOf fn = some (fn - 1) := if_neg h

end Sys2Proof.Machine
end

section
/-! Register reads and clears: accesses of another width, debug views, counter clears, the LO read. -/

namespace Sys2Proof.Machine

variable {s : State} {fn : Nat}

theorem exec_badAccessWidth {off width : Nat} (write : Bool) (hrun : s.isRun = true) (hw : width ≠ 32)
    (hoff : off < barBytes fn) :
    exec (.badAccessWidth fn off width write) s =
      .next (if write then s.count (pageOf fn) cntBadAccess 1
        else (s.count (pageOf fn) cntBadAccess 1).put (.readData fn off width (2 ^ width - 1))) := by
  have hin : ¬ (!s.isRun ∨ width = 32 ∨ barBytes fn ≤ off) := by simp [hrun, hw, hoff]
  exact congrArg Host.Outcome.next (if_neg hin)

theorem exec_debugViewWrite {off : Nat} (v : Word) (hrun : s.isRun = true) (hlo : 0x800000 ≤ off) (hoff : off < barBytes 0) :
    exec (.debugViewWrite off v) s = .next (s.countMod cntSecDbgWrite) :=
  congrArg Host.Outcome.next (if_pos ⟨hrun, hlo, hoff⟩)

theorem exec_counterOvfClear {idx : Nat} (hrun : s.isRun = true) (hidx : idx < pageCounters fn) :
    exec (.counterOvfClear fn idx) s = .next (onRep (fun r => r.setCounter (pageOf fn) idx cntInit) s) :=
  congrArg Host.Outcome.next (if_pos ⟨hrun, hidx⟩)

/-- A counter cleared: it is 0, and nothing but the counters has changed. -/
theorem onRep_setCounter_eq (s : State) (pg : Option Nat) (idx : Nat) (c : Counter) :
    onRep (fun r => r.setCounter pg idx c) s =
      { s with
        cntMod := (onRep (fun r => r.setCounter pg idx c) s).cntMod
        cntPart := (onRep (fun r => r.setCounter pg idx c) s).cntPart } := by
  cases pg <;> rfl

theorem counterOvfClear_clears {idx : Nat} (hrun : s.isRun = true) (hidx : idx < pageCounters fn) :
    ∃ t, exec (.counterOvfClear fn idx) s = .next t ∧ (repOf t).counter (pageOf fn) idx = ⟨0, false⟩
      ∧ (∀ pg k, (pg, k) ≠ (pageOf fn, idx) → k < 64 → (repOf t).counter pg k = (repOf s).counter pg k)
      ∧ t = { s with cntMod := t.cntMod, cntPart := t.cntPart } := by
  have hidx64 : idx < 64 := Nat.lt_of_lt_of_le hidx (pageCounters_le fn)
  refine ⟨_, exec_counterOvfClear hrun hidx, Rep.counter_setCounter (repOf s) _ _ _, ?_, onRep_setCounter_eq s _ _ _⟩
  exact fun pg k hne hk => Rep.counter_setCounter_ne (repOf s) cntInit hne hidx64 hk

theorem cntCtlClearAll_clears (fn : Nat) (hrun : s.isRun = true) :
    ∃ t, exec (.cntCtlClearAll fn) s = .next t
      ∧ (∀ k, k < 64 → (repOf t).counter (pageOf fn) k = ⟨0, false⟩)
      ∧ (∀ pg k, pg ≠ pageOf fn → k < 64 → (repOf t).counter pg k = (repOf s).counter pg k)
      ∧ t = { s with cntMod := t.cntMod, cntPart := t.cntPart } := by
  have hnot : ¬ ((!s.isRun) = true) := by simp [hrun]
  refine ⟨_, congrArg Host.Outcome.next (if_neg hnot), ?_⟩
  by_cases h0 : fn = 0
  · subst h0
    rw [if_pos rfl]
    refine ⟨fun k _ => rfl, fun pg k hpg _ => ?_, rfl⟩
    cases pg with
    | none => exact absurd rfl hpg
    | some p => rfl
  · rw [if_neg h0, pageOf_succ h0]
    refine ⟨fun k hk => ?_, fun pg k hpg hk => ?_, rfl⟩
    · exact (tget_tdelRange ..).trans (if_pos ⟨by omega, by omega⟩)
    · cases pg with
      | none => rfl
      | some p =>
        have hp : p ≠ fn - 1 := fun h => hpg (congrArg some h)
        exact (tget_tdelRange ..).trans (if_neg (by omega))

/-! ## The LO read (R7) -/

/-- The upper halves `l` latched into `t`. -/
def latchAll (l : List (Nat × Nat)) (t : Tbl Word) : Tbl Word :=
  l.foldl (fun t (e : Nat × Nat) => tset e.1 (BitVec.ofNat 32 e.2) t) t

theorem tfind_latchAll_of_not_mem (l : List (Nat × Nat)) (t : Tbl Word) (k : Nat) (h : k ∉ l.map (·.1)) :
    tfind (latchAll l t) k = tfind t k := by
  induction l generalizing t with
  | nil => rfl
  | cons e l ih =>
    obtain ⟨hk, hl⟩ := not_or.1 (mt List.mem_cons.2 h)
    exact (ih _ hl).trans (tfind_tset_ne t _ hk)

theorem tfind_latchAll_of_mem {l : List (Nat × Nat)} (t : Tbl Word) (hnd : (l.map (·.1)).Nodup) {e : Nat × Nat} (he : e ∈ l) :
    tfind (latchAll l t) e.1 = some (BitVec.ofNat 32 e.2) := by
  induction l generalizing t with
  | nil => cases he
  | cons a l ih =>
    obtain ⟨ha, hl⟩ := List.nodup_cons.1 hnd
    rcases List.mem_cons.1 he with rfl | he
    · exact (tfind_latchAll_of_not_mem l _ _ ha).trans (tfind_tset_same t _ _)
    · exact ih _ hl he

/-- No read latches the same upper half twice. -/
theorem latches_nodup (s : State) (fn off : Nat) : ((s.latches fn off).map (·.1)).Nodup := by
  unfold State.latches
  repeat' split
  all_goals simp

/-- What an upper half reads once it is latched. -/
theorem readReg_of_latched {off : Nat} {v : Word} (h : tfind (s.fn fn).hiLatch off = some v) : s.readReg fn off = v.toNat := by
  rw [State.readReg, h]

theorem fn_setFn_same (s : State) (f : Nat) (h : HifFn) : (s.setFn f h).fn f = h := tget_tset_same _ _ _ _

theorem fn_setFn_ne (s : State) {f g : Nat} (h : HifFn) (hne : g ≠ f) : (s.setFn f h).fn g = s.fn g :=
  tget_tset_ne _ _ _ hne

/-- No register of the block map is an operator's view. -/
theorem viewOffset_of_lt {off : Nat} (h : off < 0x800000) : viewOffset fn off = false := by
  rw [viewOffset, decide_eq_false (Nat.not_le.2 h), Bool.and_false, Bool.false_and]

theorem lt_barBytes_of_lt {off : Nat} (h : off < 0x800000) : off < barBytes fn := by
  unfold barBytes; split <;> omega

/-- A read of a register of the block map: what it latches, and the register's value. -/
theorem exec_loReadLatch {off : Nat} (hrun : s.isRun = true) (hoff : off < 0x800000) (hraw : ¬ (fn = 0 ∧ off = offRngRaw)) :
    exec (.loReadLatch fn off) s =
      .next ((s.setFn fn { s.fn fn with hiLatch := latchAll (s.latches fn off) (s.fn fn).hiLatch }).put
        (.readData fn off 32 (s.readReg fn off))) := by
  have hin : ¬ ((!s.isRun) = true ∨ barBytes fn ≤ off) := by simp [hrun, lt_barBytes_of_lt hoff]
  change execLoReadLatch fn off s = _
  rw [execLoReadLatch, if_neg hin, if_neg hraw, viewOffset_of_lt hoff]
  rfl

theorem loReadLatch_latches {off : Nat} (hrun : s.isRun = true) (hoff : off < 0x800000) (hraw : ¬ (fn = 0 ∧ off = offRngRaw)) :
    ∃ t, exec (.loReadLatch fn off) s = .next t
      ∧ t.out = s.out ++ [.readData fn off 32 (s.readReg fn off)]
      ∧ (∀ e ∈ s.latches fn off, t.readReg fn e.1 = e.2 % 2 ^ 32)
      ∧ (∀ f, f ≠ fn → t.fn f = s.fn f)
      ∧ t = { s with out := t.out, hif := t.hif } := by
  refine ⟨_, exec_loReadLatch hrun hoff hraw, rfl, fun e he => ?_, fun f hf => fn_setFn_ne s _ hf, rfl⟩
  refine (readReg_of_latched (v := BitVec.ofNat 32 e.2) ?_).trans (BitVec.toNat_ofNat ..)
  have hfn := fn_setFn_same s fn { s.fn fn with hiLatch := latchAll (s.latches fn off) (s.fn fn).hiLatch }
  exact (congrArg (fun h : HifFn => tfind h.hiLatch e.1) hfn).trans (tfind_latchAll_of_mem _ (latches_nodup s fn off) he)

/-- In FAULT_SECURE and RETIRED an operator's view reads 0 (R3, R341). -/
theorem exec_loReadLatch_viewsShut {off : Nat} (hrun : s.isRun = true) (hlo : 0x800000 ≤ off) (hoff : off < barBytes 0)
    (hshut : 2 ≤ s.sec.lifecycle) : exec (.loReadLatch 0 off) s = .next (s.put (.readData 0 off 32 0)) := by
  have hin : ¬ ((!s.isRun) = true ∨ barBytes 0 ≤ off) := by simp [hrun, hoff]
  have hraw : ¬ ((0 : Nat) = 0 ∧ off = offRngRaw) := by simp only [offRngRaw]; omega
  have hview : viewOffset 0 off = true ∧ s.viewsShut = true := by simp [viewOffset, State.viewsShut, hlo, hoff, hshut]
  change execLoReadLatch 0 off s = _
  rw [execLoReadLatch, if_neg hin, if_neg hraw, if_pos hview]

/-- Settles O5. -/
theorem registerReadsAndClears : Obligations.RegisterReadsAndClears :=
  ⟨⟨fun _ _ _ _ write hrun hw hoff => exec_badAccessWidth write hrun hw hoff,
      fun _ _ v hrun hlo hoff => exec_debugViewWrite v hrun hlo hoff,
      fun _ _ _ hrun hidx => counterOvfClear_clears hrun hidx,
      fun _ fn hrun => cntCtlClearAll_clears fn hrun⟩,
    fun _ _ _ hrun hoff hraw => loReadLatch_latches hrun hoff hraw,
    fun _ _ hrun hlo hoff hshut => exec_loReadLatch_viewsShut hrun hlo hoff hshut⟩

end Sys2Proof.Machine
end

section
/-! Register writes of GLB, MEM, FLC, FAB, SEC and FW: which block an offset reaches (R5), and what its write sets. -/

namespace Sys2Proof.Machine

variable {s : State} {fn off : Nat}

/-! ## The block map (R5) -/

theorem not_outside_of_isRun (hrun : s.isRun = true) (hoff : off < 0x800000) : ¬ ((!s.isRun) = true ∨ barBytes fn ≤ off) := by
  simp [hrun, lt_barBytes_of_lt hoff]

theorem exec_registerWrite_glb (v : Word) (hrun : s.isRun = true) (hhi : off < 0x100000) :
    exec (.registerWrite fn off v) s = .next (s.writeGlb fn off v.toNat) := by
  change execRegisterWrite fn off v s = _
  rw [execRegisterWrite, if_neg (not_outside_of_isRun hrun (by omega))]
  simp (disch := omega) only [if_neg, if_pos hhi]

theorem exec_registerWrite_mem (v : Word) (hrun : s.isRun = true) (hlo : 0x400000 ≤ off) (hhi : off < 0x480000) :
    exec (.registerWrite fn off v) s = writeMem fn (off - 0x400000) v s := by
  change execRegisterWrite fn off v s = _
  rw [execRegisterWrite, if_neg (not_outside_of_isRun hrun (by omega))]
  simp (disch := omega) only [if_neg, if_pos hhi]

theorem exec_registerWrite_flc (v : Word) (hrun : s.isRun = true) (hlo : 0x480000 ≤ off) (hhi : off < 0x500000) :
    exec (.registerWrite fn off v) s = .next (s.writeFlc fn (off - 0x480000) v.toNat) := by
  change execRegisterWrite fn off v s = _
  rw [execRegisterWrite, if_neg (not_outside_of_isRun hrun (by omega))]
  simp (disch := omega) only [if_neg, if_pos hhi]

theorem exec_registerWrite_fab (v : Word) (hrun : s.isRun = true) (hlo : 0x500000 ≤ off) (hhi : off < 0x580000) :
    exec (.registerWrite fn off v) s = .next (s.writeFab fn (off - 0x500000) v.toNat) := by
  change execRegisterWrite fn off v s = _
  rw [execRegisterWrite, if_neg (not_outside_of_isRun hrun (by omega))]
  simp (disch := omega) only [if_neg, if_pos hhi]

theorem exec_registerWrite_sec (v : Word) (hrun : s.isRun = true) (hlo : 0x5C0000 ≤ off) (hhi : off < 0x5E0000) :
    exec (.registerWrite fn off v) s = .next (s.writeSec fn (off - 0x5C0000) v) := by
  change execRegisterWrite fn off v s = _
  rw [execRegisterWrite, if_neg (not_outside_of_isRun hrun (by omega))]
  simp (disch := omega) only [if_neg, if_pos hhi]

theorem exec_registerWrite_fw (v : Word) (hrun : s.isRun = true) (hlo : 0x680000 ≤ off) (hhi : off < 0x700000) :
    exec (.registerWrite fn off v) s = writeFw fn (off - 0x680000) v s := by
  change execRegisterWrite fn off v s = _
  rw [execRegisterWrite, if_neg (not_outside_of_isRun hrun (by omega))]
  simp (disch := omega) only [if_neg, if_pos hhi]

/-! ## Fields -/

theorem writeGlb_det (s : State) (v : Nat) : s.writeGlb 0 0x4 v = { s with glb := { s.glb with det := v % 2 = 1 } } := by
  simp only [State.writeGlb, bit_eq, Nat.pow_zero, Nat.div_one]
  rfl

theorem writeGlb_det_vf (s : State) (v : Nat) (hfn : fn ≠ 0) : s.writeGlb fn 0x4 v = s := by
  simp [State.writeGlb, hfn]

/-- A patrol period takes a value of 1 to 168 hours (R212). -/
theorem period_eq (old v : Nat) : period old v = if 1 ≤ v ∧ v ≤ 168 then v else old := by
  by_cases h : 1 ≤ v ∧ v ≤ 168
  · rw [period, if_neg (by omega), if_pos h]
  · rw [period, if_pos (by omega), if_neg h]

theorem writeMem_patrol (s : State) (v : Word) : writeMem 0 0x0 v s = .next { s with
    mem := { s.mem with
      patrolB := (if 1 ≤ v.toNat / 256 % 256 ∧ v.toNat / 256 % 256 ≤ 168 then v.toNat / 256 % 256 else s.mem.patrolB)
      patrolA := (if 1 ≤ v.toNat % 256 ∧ v.toNat % 256 ≤ 168 then v.toNat % 256 else s.mem.patrolA) } } := by
  simp only [writeMem, period_eq, field_eq]
  rfl

theorem writeFlc_patrol (s : State) (v : Nat) : s.writeFlc 0 0x8 v = { s with
    flc := { s.flc with patrol := (if 1 ≤ v % 32 ∧ v % 32 ≤ 30 then v % 32 else s.flc.patrol) } } := by
  unfold State.writeFlc
  by_cases h : 1 ≤ v % 32 ∧ v % 32 ≤ 30
  · rw [if_pos ⟨rfl, rfl, h⟩, if_pos h]
  · rw [if_neg (fun hc => h hc.2.2), if_neg h]

theorem writeFab_timers (s : State) (v : Word) : s.writeFab 0 0x0 v.toNat = { s with
    fab := { s.fab with
      udpPort := v.toNat / 2 ^ 16
      timeout := (if v.toNat / 256 % 256 = 0 then s.fab.timeout else v.toNat / 256 % 256)
      rnr := (if v.toNat % 256 = 0 then s.fab.rnr else v.toNat % 256) } } := by
  have hport : v.toNat / 2 ^ 16 % 2 ^ 16 = v.toNat / 2 ^ 16 := Nat.mod_eq_of_lt (by have := v.isLt; omega)
  simp only [State.writeFab, field_eq, hport, Nat.pow_zero, Nat.div_one]
  rfl

/-- FAB_ADDR stands while a job is bound (R303). -/
theorem writeFab_addr_bound {j : Nat} (v : Nat) (hj : j < 4) (hjobs : s.fab.jobs ≠ []) : s.writeFab 0 (0x10 + 4 * j) v = s := by
  have hbound : ¬ (0x10 ≤ 0x10 + 4 * j ∧ 0x10 + 4 * j < 0x20 ∧ s.fab.jobs.isEmpty = true) := by
    simp [List.isEmpty_iff, hjobs]
  rw [State.writeFab, if_neg (by simp), if_neg (by omega), if_neg (by omega), if_neg hbound]

/-! ## Register pairs (R7) -/

theorem stageLo_staged (s : State) (lo cur : Nat) (v : Word) : (s.stageLo lo v).staged lo cur = v.toNat := by
  have hfn := fn_setFn_same s 0 { s.fn 0 with loStage := tset lo v (s.fn 0).loStage }
  have hlo : tfind ((s.stageLo lo v).fn 0).loStage lo = some v :=
    (congrArg (fun h : HifFn => tfind h.loStage lo) hfn).trans (tfind_tset_same _ _ _)
  rw [State.staged, hlo]

theorem writeSec_dbgWin_hi (s : State) (hi : Word) : s.writeSec 0 0x14 hi = { s with
    sec := { s.sec with dbgWin := hi.toNat * 2 ^ 32 + s.staged 0x5C0010 (s.sec.dbgWin % 2 ^ 32) / 2 ^ 23 * 2 ^ 23 } } := rfl

theorem writeFw_mbox_hi (s : State) (hi : Word) : writeFw 0 0x14 hi s = .next { s with
    fw := { s.fw with mboxLo := BitVec.ofNat 32 (s.staged 0x680010 s.fw.mboxLo.toNat / 16 * 16), mboxHi := hi } } := rfl

/-- SEC_DBG_WIN takes effect with its HI half, its bits [22:0] 0 (R352). -/
theorem dbgWin_pair {t : State} {lo hi : Word} (hrun : s.isRun = true)
    (hlo : exec (.registerWrite 0 0x5C0010 lo) s = .next t) :
    t.sec = s.sec ∧ exec (.registerWrite 0 0x5C0014 hi) t =
      .next { t with sec := { t.sec with dbgWin := hi.toNat * 2 ^ 32 + lo.toNat / 2 ^ 23 * 2 ^ 23 } } := by
  rw [exec_registerWrite_sec lo hrun (by omega) (by omega)] at hlo
  obtain rfl : s.stageLo 0x5C0010 lo = t := Host.Outcome.next.inj hlo
  have hrun' : (s.stageLo 0x5C0010 lo).isRun = true := hrun
  refine ⟨rfl, ?_⟩
  rw [exec_registerWrite_sec hi hrun' (by omega) (by omega), writeSec_dbgWin_hi, stageLo_staged]

/-- FW_MBOX_ADDR takes effect with its HI half, its bits [3:0] 0 (R371). -/
theorem mboxAddr_pair {t : State} {lo hi : Word} (hrun : s.isRun = true)
    (hlo : exec (.registerWrite 0 0x680010 lo) s = .next t) :
    t.fw = s.fw ∧ exec (.registerWrite 0 0x680014 hi) t =
      .next { t with fw := { t.fw with mboxLo := BitVec.ofNat 32 (lo.toNat / 16 * 16), mboxHi := hi } } := by
  rw [exec_registerWrite_fw lo hrun (by omega) (by omega)] at hlo
  obtain rfl : s.stageLo 0x680010 lo = t := Host.Outcome.next.inj hlo
  have hrun' : (s.stageLo 0x680010 lo).isRun = true := hrun
  refine ⟨rfl, ?_⟩
  rw [exec_registerWrite_fw hi hrun' (by omega) (by omega), writeFw_mbox_hi, stageLo_staged]

/-- Settles O6: each register by its block and its field; each pair by its staged LO half. -/
theorem moduleRegisterWrites : Obligations.ModuleRegisterWrites := by
  refine ⟨⟨fun s v hrun => ?_, fun s fn v hrun hfn => ?_, fun s v hrun => ?_, fun s v hrun => ?_, fun s v hrun => ?_,
    fun s j v hrun hj hjobs => ?_⟩, fun _ _ _ _ hrun hlo => dbgWin_pair hrun hlo, fun _ _ _ _ hrun hlo => mboxAddr_pair hrun hlo⟩
  · rw [exec_registerWrite_glb v hrun (by omega), writeGlb_det]
  · rw [exec_registerWrite_glb v hrun (by omega), writeGlb_det_vf _ _ hfn]
  · rw [exec_registerWrite_mem v hrun (by omega) (by omega), writeMem_patrol]
  · rw [exec_registerWrite_flc v hrun (by omega) (by omega), writeFlc_patrol]
  · rw [exec_registerWrite_fab v hrun (by omega) (by omega), writeFab_timers]
  · rw [exec_registerWrite_fab v hrun (by omega) (by omega),
      show 0x500010 + 4 * j - 0x500000 = 0x10 + 4 * j by omega, writeFab_addr_bound _ hj hjobs]

end Sys2Proof.Machine
end

section
/-! What the end of a session, of a key or of a round can do. Rounds abort, sessions and slots go, what used them ends with a
status; nothing of it opens a round, brings a key, writes a byte of tier A or B, or reaches power, firmware, the random source,
the Meridian or the partitions (R115, R328, R329, R337, R343). -/

namespace Sys2Proof.Machine

/-- What no such end reaches. -/
def State.still (s : State) : List Instr × Nat × Glb × Bytes × Tbl Part × Mrd × Rng × Fw × Pwr :=
  (s.pending, s.now, s.glb, s.layout, s.parts, s.mrd, s.rng, s.fw, s.pwr)

/-- `t` is `s` with no more than ends of sessions, keys and rounds, and errors that these met in memory. -/
structure Winds (s t : State) : Prop where
  still : t.still = s.still
  memory : SameMemory s t
  sec : t.sec = { s.sec with slots := t.sec.slots, ide := t.sec.ide, sessions := t.sec.sessions }
  slots : t.sec.slots ⊆ s.sec.slots
  ide : t.sec.ide ⊆ s.sec.ide
  sessions : t.sec.sessions ⊆ s.sec.sessions
  rounds : ∀ r, (s.round r).st.running = false → (t.round r).st.running = false

/-- `Winds`, where no line in error waits to be met: then the controllers of tiers A and B stand as they were. -/
structure Ends (s t : State) : Prop extends Winds s t where
  mem : s.mem.upset = [] → t.mem = s.mem

variable {s t u : State}

/-! ## The relations -/

theorem Winds.trans (h : Winds s t) (k : Winds t u) : Winds s u where
  still := k.still.trans h.still
  memory := h.memory.trans k.memory
  sec := by rw [k.sec, h.sec]
  slots := List.Subset.trans k.slots h.slots
  ide := List.Subset.trans k.ide h.ide
  sessions := List.Subset.trans k.sessions h.sessions
  rounds := fun r hr => k.rounds r (h.rounds r hr)

theorem Ends.trans (h : Ends s t) (k : Ends t u) : Ends s u where
  toWinds := h.toWinds.trans k.toWinds
  mem := fun hu => by
    have ht := h.mem hu
    exact (k.mem (by rw [ht, hu])).trans ht

/-- What differs in nothing that the relations speak of. -/
theorem Ends.of_same (hs : t.still = s.still) (hm : SameMemory s t) (hc : t.mem = s.mem) (hx : t.sec = s.sec)
    (hr : t.rounds = s.rounds) : Ends s t where
  still := hs
  memory := hm
  sec := by rw [hx]
  slots := by rw [hx]; exact List.Subset.refl _
  ide := by rw [hx]; exact List.Subset.refl _
  sessions := by rw [hx]; exact List.Subset.refl _
  rounds := fun r h => by rwa [State.round, hr]
  mem := fun _ => hc

theorem Ends.refl (s : State) : Ends s s := .of_same rfl (.refl s) rfl rfl rfl

theorem OnlyReports.ends (h : OnlyReports s t) : Ends s t := by
  unfold OnlyReports at h
  rw [h]
  exact .of_same rfl ⟨rfl, rfl⟩ rfl rfl rfl

theorem ends_foldl {β : Type} (f : State → β → State) (h : ∀ a b, Ends a (f a b)) (l : List β) (s : State) :
    Ends s (l.foldl f s) := by
  induction l generalizing s with
  | nil => exact .refl s
  | cons b l ih => exact (h s b).trans (ih _)

theorem winds_foldl {β : Type} (f : State → β → State) (h : ∀ a b, Winds a (f a b)) (l : List β) (s : State) :
    Winds s (l.foldl f s) := by
  induction l generalizing s with
  | nil => exact (Ends.refl s).toWinds
  | cons b l ih => exact (h s b).trans (ih _)

theorem Winds.parts (h : Winds s t) : t.parts = s.parts := congrArg (·.2.2.2.2.1) h.still

theorem Winds.rng (h : Winds s t) : t.rng = s.rng := congrArg (·.2.2.2.2.2.2.1) h.still

theorem Winds.fw (h : Winds s t) : t.fw = s.fw := congrArg (·.2.2.2.2.2.2.2.1) h.still

theorem Winds.pwr (h : Winds s t) : t.pwr = s.pwr := congrArg (·.2.2.2.2.2.2.2.2) h.still

/-! ## Reports -/

theorem ends_raise (s : State) (src code part : Nat) (d : Bytes) : Ends s (s.raise src code part d) :=
  (onlyReports_raise ..).ends

theorem ends_count (s : State) (pg : Option Nat) (idx n : Nat) : Ends s (s.count pg idx n) := (onlyReports_count ..).ends

theorem ends_countError (s : State) (p : Option Nat) (idx : Nat) : Ends s (s.countError p idx) :=
  (onlyReports_countError ..).ends

theorem ends_finish (s : State) (id st : Nat) (d : Bytes) : Ends s (s.finish id st d) := (onlyReports_finish ..).ends

/-! ## Rounds (R115) -/

theorem round_setRound_same (s : State) (r : Nat) (x : Round) : (s.setRound r x).round r = x := tget_tset_same _ _ _ _

theorem round_setRound_ne (s : State) {r q : Nat} (x : Round) (h : q ≠ r) : (s.setRound r x).round q = s.round q :=
  tget_tset_ne _ _ _ h

theorem ends_setRound (s : State) (r : Nat) (x : Round)
    (hx : (s.round r).st.running = false → x.st.running = false) : Ends s (s.setRound r x) where
  still := rfl
  memory := ⟨rfl, rfl⟩
  sec := rfl
  slots := List.Subset.refl _
  ide := List.Subset.refl _
  sessions := List.Subset.refl _
  rounds := fun q hq => by
    by_cases h : q = r
    · subst h; rw [round_setRound_same]; exact hx hq
    · rwa [round_setRound_ne s x h]
  mem := fun _ => rfl

theorem ends_dropStaged (s : State) (r : Nat) : Ends s (s.dropStaged r) :=
  (ends_setRound s r { s.round r with staged := [] } id).trans
    (ends_foldl (fun s (e : Staged) => s.finish e.op stAggState) (fun _ _ => ends_finish ..) _ _)

theorem ends_endSecrets (s : State) (r : Nat) : Ends s (s.endSecrets r) where
  still := rfl
  memory := ⟨rfl, rfl⟩
  sec := rfl
  slots := List.filter_sublist.subset
  ide := List.Subset.refl _
  sessions := List.Subset.refl _
  rounds := fun _ h => h
  mem := fun _ => rfl

/-- A round as its abort leaves it (R115). -/
def Round.aborted (x : Round) (cause : Nat) : Round :=
  { x with
    st := .aborted, cause := cause, pub := zeros 97, seed := [], unmask := .none, blocks := [], draining := false
    collOpen := false, wants := false, thrAt := none, openOp := none, scrub := true }

/-- The abort of an open round: its secrets go, it is ABORTED, and no more than ends follows. -/
theorem ends_after_abort (s : State) (r cause : Nat) (hrun : (s.round r).st.running = true) :
    Ends ((s.endSecrets r).setRound r ((s.round r).aborted cause)) (s.abortRound r cause) := by
  have hdrop : Ends ((s.endSecrets r).setRound r ((s.round r).aborted cause))
      ((((s.endSecrets r).setRound r ((s.round r).aborted cause)).roundEvent r .aborted cause).dropStaged r) :=
    (ends_raise ..).trans (ends_dropStaged _ r)
  unfold State.abortRound
  dsimp only
  rw [if_pos hrun]
  split
  · exact hdrop.trans (ends_finish ..)
  · exact hdrop

theorem abortRound_of_not_running {r : Nat} (cause : Nat) (h : (s.round r).st.running = false) : s.abortRound r cause = s := by
  unfold State.abortRound
  dsimp only
  rw [if_neg (by simp [h])]

theorem ends_abortRound (s : State) (r cause : Nat) : Ends s (s.abortRound r cause) := by
  cases hrun : (s.round r).st.running
  · rw [abortRound_of_not_running cause hrun]; exact .refl s
  · exact ((ends_endSecrets s r).trans (ends_setRound _ r _ (fun _ => rfl))).trans (ends_after_abort s r cause hrun)

/-- An aborted round is not open. -/
theorem abortRound_not_running (s : State) (r cause : Nat) : ((s.abortRound r cause).round r).st.running = false := by
  cases hrun : (s.round r).st.running
  · rwa [abortRound_of_not_running cause hrun]
  · exact (ends_after_abort s r cause hrun).rounds r (by rw [round_setRound_same]; rfl)

theorem ends_abortAll (s : State) (cause : Nat) : Ends s (s.abortAll cause) :=
  ends_foldl _ (fun a r => ends_abortRound a r cause) _ _

/-- Once every round is aborted none is open. -/
theorem abortAll_not_running (s : State) (cause : Nat) {r : Nat} (hr : r < 64) :
    ((s.abortAll cause).round r).st.running = false := by
  suffices h : ∀ (l : List Nat) (a : State), r ∈ l →
      ((l.foldl (fun s r => s.abortRound r cause) a).round r).st.running = false from h _ _ (List.mem_range.2 hr)
  intro l
  induction l with
  | nil => intro a h; cases h
  | cons q l ih =>
    intro a h
    rcases List.mem_cons.1 h with rfl | h
    · exact (ends_foldl _ (fun a r => ends_abortRound a r cause) l _).rounds r (abortRound_not_running a r cause)
    · exact ih _ h

/-! ## Errors met in memory (R199 to R205) -/

theorem winds_mem (s : State) (m : MemCtl) : Winds s { s with mem := m } where
  still := rfl
  memory := ⟨rfl, rfl⟩
  sec := rfl
  slots := List.Subset.refl _
  ide := List.Subset.refl _
  sessions := List.Subset.refl _
  rounds := fun _ h => h

theorem winds_retireRow (s : State) (tier pa : Nat) : Winds s (s.retireRow tier pa) := by
  unfold State.retireRow
  dsimp only
  split
  · exact (winds_mem s _).trans ((ends_count ..).trans (ends_raise ..)).toWinds
  · split
    · exact winds_mem s _
    · exact ((winds_mem s _).trans (winds_mem _ _)).trans (ends_raise ..).toWinds

theorem winds_shardFault (s : State) (tier pa : Nat) : Winds s (s.shardFault tier pa) := by
  unfold State.shardFault
  split
  · refine winds_foldl _ (fun a r => ?_) _ _
    split
    · exact (ends_abortRound ..).toWinds
    · exact (Ends.refl _).toWinds
  · exact (Ends.refl _).toWinds

theorem winds_poisonLine (s : State) (tier pa : Nat) : Winds s (s.poisonLine tier pa) := by
  have hlatch : ∀ (a : State) (st : Nat), Winds a (a.latchErr tier pa st) := fun a st => winds_mem a _
  unfold State.poisonLine
  exact ((((winds_mem s _).trans (ends_countError ..).toWinds).trans (ends_raise ..).toWinds).trans (winds_retireRow ..)).trans
    ((hlatch _ _).trans (winds_shardFault ..))

/-- Where no line is in error none is met; a line in error ends rounds at most. -/
theorem ends_meetLine (s : State) (p : Option Nat) (tier pa : Nat) : Ends s (s.meetLine p tier pa) := by
  refine ⟨?_, fun hu => by rw [meetLine_clean (by rw [hu]; rfl)]⟩
  unfold State.meetLine
  dsimp only
  split
  · exact (Ends.refl s).toWinds
  · exact (winds_mem _ _).trans (ends_count ..).toWinds
  · exact (winds_mem _ _).trans (ends_countError ..).toWinds
  · exact winds_poisonLine ..

theorem ends_readLine (p tier : Nat) (acc : State × ReadRes) (ln : Nat) : Ends acc.1 (readLine p tier acc ln).1 := by
  unfold readLine
  dsimp only
  split
  · exact .refl _
  · exact ends_meetLine ..

theorem ends_memRead (s : State) (p tier a n : Nat) : Ends s (s.memRead p tier a n).1 := by
  have h : ∀ (l : List Nat) (acc : State × ReadRes), Ends acc.1 (l.foldl (readLine p tier) acc).1 := by
    intro l
    induction l with
    | nil => exact fun acc => .refl _
    | cons x l ih => exact fun acc => (ends_readLine p tier acc x).trans (ih _)
  unfold State.memRead
  split
  · exact h (linesOf a n) (s, readInit)
  · exact .refl _

/-! ## What used a key -/

theorem ends_fire (s : State) (a : Armed) : Ends s (s.fire a) :=
  (ends_memRead s a.part a.tier a.addr 64).trans (.of_same rfl ⟨rfl, rfl⟩ rfl rfl rfl)

theorem ends_setTrigger (s : State) (p c v : Nat) : Ends s (s.setTrigger p c v) :=
  Ends.trans (t := { s with fab := { s.fab with trig := tset (p * 1024 + c) (v % 2 ^ 32) s.fab.trig } })
    (.of_same rfl ⟨rfl, rfl⟩ rfl rfl rfl) (ends_foldl _ ends_fire _ _)

theorem ends_bump (s : State) (p n : Nat) : Ends s (s.bump p n) := by
  unfold State.bump
  split
  · exact .refl s
  · exact ends_setTrigger ..

theorem ends_finishFab (s : State) (id st : Nat) (d : Bytes) : Ends s (s.finishFab id st d) := by
  unfold State.finishFab
  split
  · exact .refl s
  · dsimp only
    split
    · exact (ends_finish ..).trans (ends_bump ..)
    · exact ends_finish ..

theorem ends_countCcWait (s : State) (m : Msg) : Ends s (s.countCcWait m) := by
  unfold State.countCcWait
  split
  · exact .refl s
  · exact ends_count ..

theorem ends_landed (s : State) (m : Msg) (n : Nat) : Ends s (s.landed m n) := by
  unfold State.landed
  split
  · exact .refl s
  · split
    · exact .refl s
    · exact .of_same rfl ⟨rfl, rfl⟩ rfl rfl rfl

theorem ends_removeMsg (s : State) (i : Nat) : Ends s (s.removeMsg i) := by
  unfold State.removeMsg
  split
  · exact .refl s
  · exact ((ends_countCcWait ..).trans (ends_landed ..)).trans (.of_same rfl ⟨rfl, rfl⟩ rfl rfl rfl)

theorem ends_endJobs (s : State) (dead : List Nat) : Ends s (s.endJobs dead) := by
  refine ends_foldl _ (fun a e => ?_) _ _
  dsimp only
  split
  · exact (ends_removeMsg ..).trans (ends_finishFab ..)
  · exact ends_removeMsg ..

theorem ends_clearGrus (s : State) (p : Nat) : Ends s (s.clearGrus p) := .of_same rfl ⟨rfl, rfl⟩ rfl rfl rfl

theorem ends_endRuns (s : State) (dead : List Nat) : Ends s (s.endRuns dead) := by
  refine ends_foldl _ (fun a e => ?_) _ _
  exact Ends.trans (t := { a with gruRuns := tdel e.1 a.gruRuns }) (.of_same rfl ⟨rfl, rfl⟩ rfl rfl rfl)
    ((ends_clearGrus ..).trans (ends_finish ..))

theorem ends_setPanel (s : State) (n : Nat) (x : Panel) : Ends s (s.setPanel n x) := .of_same rfl ⟨rfl, rfl⟩ rfl rfl rfl

theorem ends_settleRun (s : State) (id : Nat) : Ends s (s.settleRun id) := by
  unfold State.settleRun
  split
  · exact .refl s
  · dsimp only
    split
    · exact (ends_foldl _ (fun a (e : Nat × Panel) => ends_setPanel a e.1 _) _ _).trans (ends_finish ..)
    · exact .refl s

theorem ends_endMemory (s : State) (dead : List Nat) : Ends s (s.endMemory dead) := by
  refine ends_foldl _ (fun a e => ?_) _ _
  dsimp only
  split
  · exact (ends_foldl _ (fun a n => ends_setPanel a n _) _ _).trans (ends_settleRun ..)
  · split
    · exact Ends.trans (t := { a with gruRuns := a.gruRuns.filter (fun x => x.2.op != e.1) })
        (.of_same rfl ⟨rfl, rfl⟩ rfl rfl rfl) ((ends_clearGrus ..).trans (ends_finish ..))
    · exact ends_finish ..

theorem ends_setFlc (s : State) (f : Flash) : Ends s (s.setFlc f) := .of_same rfl ⟨rfl, rfl⟩ rfl rfl rfl

theorem ends_settleWait (s : State) : Ends s s.settleWait := by
  unfold State.settleWait
  split
  · exact ends_setFlc ..
  · exact (ends_setFlc ..).trans (ends_count ..)
  · exact .refl s

theorem ends_dropExtents (s : State) (sel : Extent → Bool) : Ends s (s.dropExtents sel) :=
  (ends_setFlc ..).trans (ends_settleWait _)

theorem ends_endExtents (s : State) (p : Nat) : Ends s (s.endExtents p) :=
  (ends_dropExtents ..).trans (ends_foldl _ (fun a op => ends_finish a op _ _) _ _)

/-! ## Zeroisation (R328, R329) -/

/-- Slots, IDE keys and sessions that go. -/
theorem ends_setSec {x : Sec} (hx : x = { s.sec with slots := x.slots, ide := x.ide, sessions := x.sessions })
    (hslots : x.slots ⊆ s.sec.slots) (hide : x.ide ⊆ s.sec.ide) (hsess : x.sessions ⊆ s.sec.sessions) :
    Ends s (s.setSec x) where
  still := rfl
  memory := ⟨rfl, rfl⟩
  sec := hx
  slots := hslots
  ide := hide
  sessions := hsess
  rounds := fun _ h => h
  mem := fun _ => rfl

/-- The slots that a zeroisation clears: those that `sel` names, with the tier C data keys that go with them. -/
def State.deadSlots (s : State) (sel : Nat → KeySlot → Bool) : List Nat :=
  let hit := s.sec.slots.filter (fun e => e.2.valid && sel e.1 e.2)
  hit.map (·.1) ++ ((List.range 32).filter (fun p =>
    hit.any (fun e => (decide (168 ≤ e.1) && bit e.2.engine engTierC && (e.2.part == p || e.2.anyPart)) || e.1 == 72 + p))).map
      (72 + ·)

/-- A state without the slots that a zeroisation clears. -/
def State.withoutSlots (s : State) (sel : Nat → KeySlot → Bool) : State :=
  s.setSec { s.sec with slots := s.sec.slots.filter (fun e => !(s.deadSlots sel).contains e.1) }

theorem ends_withoutSlots (s : State) (sel : Nat → KeySlot → Bool) : Ends s (s.withoutSlots sel) :=
  ends_setSec (x := { s.sec with slots := s.sec.slots.filter (fun e => !(s.deadSlots sel).contains e.1) }) rfl
    List.filter_sublist.subset (List.Subset.refl _) (List.Subset.refl _)

/-- Once the slots are cleared, a zeroisation ends what used them. -/
theorem ends_zeroise_cleared (s : State) (sel : Nat → KeySlot → Bool) : Ends (s.withoutSlots sel) (s.zeroise sel) := by
  unfold State.zeroise
  refine Ends.trans (ends_foldl _ (fun a r => ?_) _ _) (((ends_endJobs ..).trans (ends_endRuns ..)).trans
    ((ends_endMemory ..).trans (ends_foldl _ ends_endExtents _ _)))
  split
  · exact ends_abortRound ..
  · exact .refl _

theorem ends_zeroise (s : State) (sel : Nat → KeySlot → Bool) : Ends s (s.zeroise sel) :=
  (ends_withoutSlots s sel).trans (ends_zeroise_cleared s sel)

/-- A zeroisation leaves no valid slot that it names. -/
theorem zeroise_slot_invalid (s : State) {sel : Nat → KeySlot → Bool} {e : Nat × KeySlot} (he : e ∈ (s.zeroise sel).sec.slots)
    (hsel : sel e.1 e.2 = true) : e.2.valid = false := by
  obtain ⟨hin, hdead⟩ := List.mem_filter.1 ((ends_zeroise_cleared s sel).slots he)
  refine Bool.eq_false_iff.2 fun hv => ?_
  have hhit : e ∈ s.sec.slots.filter (fun e => e.2.valid && sel e.1 e.2) :=
    List.mem_filter.2 ⟨hin, by rw [hv, hsel]; rfl⟩
  have hmem : e.1 ∈ s.deadSlots sel := List.mem_append_left _ (List.mem_map_of_mem hhit)
  simp [hmem] at hdead

/-- Without a slot and without an IDE key. -/
def State.keyless (s : State) : State := s.setSec { s.sec with slots := [], ide := [] }

theorem zeroiseAll_eq (s : State) : s.zeroiseAll = (s.zeroise (fun _ _ => true)).keyless.abortAll causeKeysZeroised := rfl

theorem ends_keyless (s : State) : Ends s s.keyless :=
  ends_setSec (x := { s.sec with slots := [], ide := [] }) rfl (List.nil_subset _) (List.nil_subset _) (List.Subset.refl _)

theorem ends_zeroiseAll (s : State) : Ends s s.zeroiseAll := by
  rw [zeroiseAll_eq]
  exact (ends_zeroise s _).trans ((ends_keyless _).trans (ends_abortAll _ _))

/-- Every slot, every IDE key and every open round is gone. -/
structure State.keysGone (t : State) : Prop where
  slots : t.sec.slots = []
  ide : t.sec.ide = []
  rounds : ∀ r, r < 64 → (t.round r).st.running = false

theorem zeroiseAll_keysGone (s : State) : s.zeroiseAll.keysGone := by
  rw [zeroiseAll_eq]
  have habort := ends_abortAll (s.zeroise (fun _ _ => true)).keyless causeKeysZeroised
  exact ⟨List.subset_nil.1 habort.slots, List.subset_nil.1 habort.ide, fun r hr => abortAll_not_running _ _ hr⟩

/-- What is gone stays gone. -/
theorem Winds.keysGone (h : Winds s t) (hs : s.keysGone) : t.keysGone where
  slots := List.subset_nil.1 (hs.slots ▸ h.slots)
  ide := List.subset_nil.1 (hs.ide ▸ h.ide)
  rounds := fun r hr => h.rounds r (hs.rounds r hr)

theorem Winds.no_sessions (h : Winds s t) (hs : s.sec.sessions = []) : t.sec.sessions = [] :=
  List.subset_nil.1 (hs ▸ h.sessions)

theorem State.keysGone.secretsGone (h : s.keysGone) (hsess : s.sec.sessions = []) : s.secretsGone :=
  ⟨h.slots, h.ide, hsess, h.rounds⟩

theorem Winds.secretsGone (h : Winds s t) (hs : s.secretsGone) : t.secretsGone := by
  obtain ⟨hslots, hide, hsess, hrounds⟩ := hs
  exact (h.keysGone ⟨hslots, hide, hrounds⟩).secretsGone (h.no_sessions hsess)

/-! ## Sessions (R337) -/

/-- A state without the sessions that `sel` names. -/
def State.withoutSessions (s : State) (sel : Session → Bool) : State :=
  s.setSec { s.sec with sessions := s.sec.sessions.filter (fun x => !sel x) }

theorem ends_withoutSessions (s : State) (sel : Session → Bool) : Ends s (s.withoutSessions sel) :=
  ends_setSec (x := { s.sec with sessions := s.sec.sessions.filter (fun x => !sel x) }) rfl (List.Subset.refl _)
    (List.Subset.refl _) List.filter_sublist.subset

theorem ends_closeSessions_removed (s : State) (sel : Session → Bool) : Ends (s.withoutSessions sel) (s.closeSessions sel) :=
  ends_foldl (fun (s : State) (x : Session) => s.sessionEvent x 0) (fun _ _ => ends_raise ..) _ _

theorem ends_closeSessions (s : State) (sel : Session → Bool) : Ends s (s.closeSessions sel) :=
  (ends_withoutSessions s sel).trans (ends_closeSessions_removed s sel)

/-- No session that `sel` names outlives the close. -/
theorem closeSessions_sessions {sel : Session → Bool} {x : Session} (hx : x ∈ (s.closeSessions sel).sec.sessions) :
    sel x = false := by
  simpa using (List.mem_filter.1 ((ends_closeSessions_removed s sel).sessions hx)).2

/-- What an end of sessions does beyond closing them. -/
theorem ends_endSessions_closed {sel : Session → Bool} (h : s.sec.sessions.filter sel ≠ []) :
    Ends (s.closeSessions sel) (s.endSessions sel) := by
  unfold State.endSessions
  dsimp only
  rw [if_neg (by simpa using h)]
  refine Ends.trans (ends_setSec (x := { (s.closeSessions sel).sec with
    ide := List.filter (fun e => !((s.sec.sessions.filter sel).map (·.sid)).contains e.2.1) (s.closeSessions sel).sec.ide })
    rfl (List.Subset.refl _) List.filter_sublist.subset (List.Subset.refl _)) (ends_zeroise ..)

theorem endSessions_of_none {sel : Session → Bool} (h : s.sec.sessions.filter sel = []) : s.endSessions sel = s := by
  unfold State.endSessions
  dsimp only
  rw [if_pos (by simp [h])]

theorem ends_endSessions (s : State) (sel : Session → Bool) : Ends s (s.endSessions sel) := by
  by_cases h : s.sec.sessions.filter sel = []
  · rw [endSessions_of_none h]; exact .refl s
  · exact (ends_closeSessions s sel).trans (ends_endSessions_closed h)

/-- When every session ends none is left. -/
theorem endSessions_all_sessions (s : State) : (s.endSessions (fun _ => true)).sec.sessions = [] := by
  refine List.eq_nil_iff_forall_not_mem.2 fun x hx => ?_
  by_cases h : s.sec.sessions.filter (fun _ => true) = []
  · rw [endSessions_of_none h] at hx
    exact List.not_mem_nil (h ▸ List.mem_filter.2 ⟨hx, rfl⟩)
  · exact Bool.noConfusion (closeSessions_sessions ((ends_endSessions_closed h).sessions hx))

/-! ## FAULT_SECURE (R343) -/

/-- DEPLOYED with the latch set and its cause, as FAULT_SECURE records it. -/
def State.latched (s : State) (cause : Nat) : State := { s with sec := { s.sec with latch := true, cause := cause } }

theorem enterFaultSecure_of_ne (cause : Nat) (h : s.sec.lifecycle ≠ 1) : s.enterFaultSecure cause = s := if_neg h

theorem enterFaultSecure_of_deployed (cause : Nat) (h : s.sec.lifecycle = 1) : s.enterFaultSecure cause =
    (((s.latched cause).raise srcThimble evSecFaultSecure 0xFF (leBytes 1 cause)).zeroiseAll).endSessions (fun _ => true) :=
  if_pos h

/-- FAULT_SECURE from DEPLOYED: the latch, the cause, and ends. -/
theorem ends_enterFaultSecure (cause : Nat) (h : s.sec.lifecycle = 1) : Ends (s.latched cause) (s.enterFaultSecure cause) := by
  rw [enterFaultSecure_of_deployed cause h]
  exact (ends_raise ..).trans ((ends_zeroiseAll _).trans (ends_endSessions _ _))

theorem enterFaultSecure_secretsGone (cause : Nat) (h : s.sec.lifecycle = 1) : (s.enterFaultSecure cause).secretsGone := by
  rw [enterFaultSecure_of_deployed cause h]
  obtain ⟨hslots, hide, hrounds⟩ := (ends_endSessions _ (fun _ => true)).toWinds.keysGone (zeroiseAll_keysGone
    ((s.latched cause).raise srcThimble evSecFaultSecure 0xFF (leBytes 1 cause)))
  exact ⟨hslots, hide, endSessions_all_sessions _, hrounds⟩

/-- What the entry into FAULT_SECURE leaves: the latch with its cause, no secret, both memories as they were. -/
theorem enterFaultSecure_enters (cause : Nat) (h : s.sec.lifecycle = 1) :
    (s.enterFaultSecure cause).sec.latch = true ∧ (s.enterFaultSecure cause).sec.cause = cause
      ∧ (s.enterFaultSecure cause).secretsGone ∧ SameMemory s (s.enterFaultSecure cause) := by
  have hends := ends_enterFaultSecure cause h
  have hsec := hends.sec
  exact ⟨by rw [hsec]; rfl, by rw [hsec]; rfl, enterFaultSecure_secretsGone cause h, hends.memory⟩

end Sys2Proof.Machine
end

section
/-! Tenant switch, retirement and FAULT_SECURE (R3, R205, R210, R343 to R345). -/

namespace Sys2Proof.Machine

variable {s t : State}

/-! ## Descriptors that wait -/

theorem onReady_of_waits {opc id : Nat} {o : Op} (h : Waits s opc id o) (f : Op → State) : onReady opc id s f = f o := by
  obtain ⟨hop, hphase, hopc⟩ := h
  rw [onReady, hop]
  exact if_pos ⟨hphase, hopc⟩

/-! ## Tier C erased, both tiers blank (R245, R344) -/

theorem settleWait_flc (s : State) : s.settleWait.flc = { s.flc with waitFrom := s.settleWait.flc.waitFrom } := by
  unfold State.settleWait
  split <;> rfl

theorem dropExtents_flc (s : State) (sel : Extent → Bool) : (s.dropExtents sel).flc =
    { s.flc with extents := (s.dropExtents sel).flc.extents, waitFrom := (s.dropExtents sel).flc.waitFrom } := by
  unfold State.dropExtents
  rw [settleWait_flc]
  rfl

theorem ends_eraseTierC (s : State) : Ends s s.eraseTierC := by
  unfold State.eraseTierC
  exact (ends_setFlc ..).trans (ends_dropExtents ..)

/-- No logical block, media key or checkpoint outlives the erasure, which is going on (R245, R246). -/
theorem eraseTierC_flc (s : State) : s.eraseTierC.flc.lblocks = [] ∧ s.eraseTierC.flc.media = []
    ∧ s.eraseTierC.flc.ckpts = [] ∧ s.eraseTierC.flc.st = 4 := by
  unfold State.eraseTierC
  dsimp only
  rw [dropExtents_flc]
  exact ⟨rfl, rfl, rfl, rfl⟩

/-! ## The start of a switch (R344) -/

/-- Every session and every key ended. -/
def State.allEnded (s : State) : State := (s.endSessions (fun _ => true)).zeroiseAll

theorem ends_allEnded (s : State) : Ends s s.allEnded := (ends_endSessions ..).trans (ends_zeroiseAll _)

theorem allEnded_secretsGone (s : State) : s.allEnded.secretsGone := by
  have hsess := (ends_zeroiseAll (s.endSessions (fun _ => true))).toWinds.no_sessions (endSessions_all_sessions s)
  rw [State.allEnded]
  exact (zeroiseAll_keysGone (s.endSessions (fun _ => true))).secretsGone hsess

theorem allEnded_sec (s : State) : s.allEnded.sec = { s.sec with slots := [], ide := [], sessions := [] } := by
  obtain ⟨hslots, hide, hsess, _⟩ := allEnded_secretsGone s
  rw [(ends_allEnded s).sec, hslots, hide, hsess]

/-- The switch recorded (step 1). -/
def State.switchBegun (s : State) (retire : Bool) : State :=
  s.setSec { s.sec with pending := true, switchRun := true, retiring := retire || s.sec.retiring }

/-- No DRBG is instantiated. -/
def State.withoutDrbgs (s : State) : State :=
  { s with
    parts := s.parts.map (fun (e : Nat × Part) => (e.1, { e.2 with drbg := none }))
    sec := { s.sec with maskDrbg := none } }

/-- The scrub of both tiers is going on. -/
def State.scrubGoing (s : State) : State := { s with mem := { s.mem with busy := true, kind := 3 } }

theorem switchStart_eq (s : State) (retire : Bool) :
    s.switchStart retire = (s.switchBegun retire).allEnded.withoutDrbgs.eraseTierC.blankAll.scrubGoing := by
  unfold State.switchStart State.switchBegun State.allEnded State.withoutDrbgs State.scrubGoing State.eraseAll
  rfl

theorem withoutDrbgs_drbg (s : State) (p : Nat) : (tget partInit s.withoutDrbgs.parts p).drbg = none := by
  unfold State.withoutDrbgs
  generalize s.parts = l
  induction l with
  | nil => rfl
  | cons e l ih =>
    rw [List.map_cons, tget]
    split
    · rfl
    · exact ih

theorem scrubGoing_sec (s : State) : s.blankAll.scrubGoing.sec = s.sec := rfl

theorem secretsGone_of_withoutDrbgs (h : s.secretsGone) : s.withoutDrbgs.secretsGone := h

theorem secretsGone_of_scrubGoing (h : s.secretsGone) : s.blankAll.scrubGoing.secretsGone := h

theorem switchStart_secretsGone (s : State) (retire : Bool) : (s.switchStart retire).secretsGone := by
  rw [switchStart_eq]
  exact secretsGone_of_scrubGoing ((ends_eraseTierC _).secretsGone (secretsGone_of_withoutDrbgs (allEnded_secretsGone _)))

/-- The Thimble after the start of a switch: the switch recorded, no slot, no IDE key, no session, no DRBG of its own. -/
theorem switchStart_sec (s : State) (retire : Bool) : (s.switchStart retire).sec = { s.sec with
    pending := true, switchRun := true, retiring := retire || s.sec.retiring, slots := [], ide := [], sessions := []
    maskDrbg := none } := by
  obtain ⟨hslots, hide, hsess, _⟩ := switchStart_secretsGone s retire
  rw [switchStart_eq, scrubGoing_sec] at *
  rw [(ends_eraseTierC _).sec, hslots, hide, hsess, State.withoutDrbgs, allEnded_sec]
  rfl

/-- Memory after the start of a switch: both tiers blank, their scrub going on. -/
theorem switchStart_memory (s : State) (retire : Bool) :
    (s.switchStart retire).tierA = [] ∧ (s.switchStart retire).tierB = [] ∧ (s.switchStart retire).mem.written = []
      ∧ (s.switchStart retire).mem.busy = true ∧ (s.switchStart retire).mem.kind = 3 := by
  rw [switchStart_eq]
  exact ⟨rfl, rfl, rfl, rfl, rfl⟩

theorem scrubGoing_flc (s : State) : s.blankAll.scrubGoing.flc = s.flc := rfl

theorem switchStart_flc (s : State) (retire : Bool) : (s.switchStart retire).flc.lblocks = []
    ∧ (s.switchStart retire).flc.media = [] ∧ (s.switchStart retire).flc.ckpts = [] ∧ (s.switchStart retire).flc.st = 4 := by
  rw [switchStart_eq, scrubGoing_flc]
  exact eraseTierC_flc _

theorem scrubGoing_parts (s : State) : s.blankAll.scrubGoing.parts = s.parts := rfl

theorem switchStart_drbg (s : State) (retire : Bool) (p : Nat) : ((s.switchStart retire).part p).drbg = none := by
  rw [State.part, switchStart_eq, scrubGoing_parts, (ends_eraseTierC _).parts]
  exact withoutDrbgs_drbg _ p

/-- What a switch leaves at its start, the epoch as it was. -/
theorem switchStart_starts (s : State) (retire : Bool) :
    (s.switchStart retire).secretsGone ∧ (s.switchStart retire).sec.pending = true
      ∧ (s.switchStart retire).sec.switchRun = true ∧ (retire = true → (s.switchStart retire).sec.retiring = true)
      ∧ (s.switchStart retire).sec.epoch = s.sec.epoch ∧ (s.switchStart retire).tierA = []
      ∧ (s.switchStart retire).tierB = [] ∧ (s.switchStart retire).mem.written = []
      ∧ (s.switchStart retire).flc.lblocks = [] ∧ (s.switchStart retire).flc.media = []
      ∧ (s.switchStart retire).flc.ckpts = [] ∧ (s.switchStart retire).flc.st = 4
      ∧ (s.switchStart retire).mem.busy = true ∧ (s.switchStart retire).mem.kind = 3
      ∧ (s.switchStart retire).sec.maskDrbg = none ∧ ∀ p, ((s.switchStart retire).part p).drbg = none := by
  obtain ⟨htierA, htierB, hwritten, hbusy, hkind⟩ := switchStart_memory s retire
  obtain ⟨hlblocks, hmedia, hckpts, hst⟩ := switchStart_flc s retire
  have hsec := switchStart_sec s retire
  refine ⟨switchStart_secretsGone s retire, by rw [hsec], by rw [hsec], fun h => by rw [hsec, h]; rfl, by rw [hsec], htierA,
    htierB, hwritten, hlblocks, hmedia, hckpts, hst, hbusy, hkind, by rw [hsec], switchStart_drbg s retire⟩

/-! ## The two descriptors (R344, R345) -/

theorem exec_tenantSwitch {id : Nat} {o : Op} (hw : Waits s 0x91 id o) : exec (.tenantSwitch id) s =
    .next (if !zeroAt o.bytes 8 56 then s.finish id stSecField else (s.running id o).switchStart false) :=
  congrArg Host.Outcome.next (onReady_of_waits hw _)

/-- The fields of a LIFECYCLE_RETIRE are as R345 asks, with the CONFIRM of this epoch, in a state that permits it. -/
abbrev State.retireOk (s : State) (o : Op) : Prop :=
  zeroAt o.bytes 8 8 = true ∧ zeroAt o.bytes 20 44 = true ∧ le o.bytes 16 4 = 2 ^ 32 - 1 - s.sec.epoch % 2 ^ 32
    ∧ s.sec.lifecycle ≠ 0

theorem exec_lifecycleRetire_ok {id : Nat} {o : Op} (hw : Waits s 0x92 id o) (hok : s.retireOk o) :
    exec (.lifecycleRetire id) s = .next ((s.running id o).switchStart true) := by
  obtain ⟨hz, hz', hconfirm, hlife⟩ := hok
  refine congrArg Host.Outcome.next ((onReady_of_waits hw _).trans (if_neg ?_))
  simp [hz, hz', hconfirm, hlife]

theorem exec_lifecycleRetire_bad {id : Nat} {o : Op} (hw : Waits s 0x92 id o) (hbad : zeroAt o.bytes 8 8 = false
      ∨ zeroAt o.bytes 20 44 = false ∨ le o.bytes 16 4 ≠ 2 ^ 32 - 1 - s.sec.epoch % 2 ^ 32 ∨ s.sec.lifecycle = 0) :
    exec (.lifecycleRetire id) s = .next (s.finish id stSecField) := by
  refine congrArg Host.Outcome.next ((onReady_of_waits hw _).trans (if_pos ?_))
  simpa using hbad

/-! ## The scrub (R205, R210) -/

theorem groupOf_of_same_line {tier a b : Nat} (h : a / 64 = b / 64) : groupOf tier a = groupOf tier b := by
  have hline : ∀ x k : Nat, x >>> (6 + k) = (x / 64) >>> k := fun x k => by
    rw [Nat.shiftRight_add, Nat.shiftRight_eq_div_pow x 6]
  have h8 : a >>> 8 = b >>> 8 := by rw [hline a 2, hline b 2, h]
  have h12 : a >>> 12 = b >>> 12 := by rw [hline a 6, hline b 6, h]
  have h16 : a >>> 16 = b >>> 16 := by rw [hline a 10, hline b 10, h]
  unfold groupOf
  rw [h8, h12, h16]

/-- Line numbers of the two tiers name tier and line. -/
theorem lineKey_inj {t1 t2 a b : Nat} (ha : a < tierBytes t1) (hb : b < tierBytes t2) (h : lineKey t1 a = lineKey t2 b) :
    t1 = t2 ∧ a / 64 = b / 64 := by
  have hlt : ∀ {t x : Nat}, x < tierBytes t → x / 64 < 2 ^ 50 := fun {t x} hx => by
    unfold tierBytes at hx
    split at hx <;> omega
  have ha' := hlt ha
  have hb' := hlt hb
  unfold lineKey at h
  omega

/-- Spare rows of the group of a physical address in use. -/
abbrev MemCtl.sparesUsed (m : MemCtl) (tier pa : Nat) : Nat := tget 0 m.spares (tier * 256 + groupOf tier pa)

/-- The line of a physical address is poisoned, for good or not. -/
def MemCtl.isPoisoned (m : MemCtl) (tier pa : Nat) : Prop := lineKey tier pa ∈ m.poison ∨ lineKey tier pa ∈ m.stuck

theorem poisoned_iff (s : State) (tier pa : Nat) : s.poisoned tier pa = true ↔ s.mem.isPoisoned tier pa := by
  simp [State.poisoned, MemCtl.isPoisoned]

/-- What a scrub does to the controllers: rows are retired, and a line is poisoned only where its group has no spare row. -/
structure Scrubs (m m' : MemCtl) : Prop where
  upset : m'.upset = m.upset
  retired : m.retired ⊆ m'.retired
  spares : ∀ g, tget 0 m.spares g ≤ tget 0 m'.spares g
  poison : ∀ tier pa, pa < tierBytes tier → m'.isPoisoned tier pa → m.isPoisoned tier pa ∨ spareRows tier ≤ m'.sparesUsed tier pa

theorem Scrubs.refl (m : MemCtl) : Scrubs m m := ⟨rfl, List.Subset.refl _, fun _ => Nat.le_refl _, fun _ _ _ h => .inl h⟩

theorem Scrubs.full {m m' : MemCtl} (h : Scrubs m m') {tier pa : Nat} (hf : spareRows tier ≤ m.sparesUsed tier pa) :
    spareRows tier ≤ m'.sparesUsed tier pa := Nat.le_trans hf (h.spares _)

theorem Scrubs.trans {m m' m'' : MemCtl} (h : Scrubs m m') (k : Scrubs m' m'') : Scrubs m m'' where
  upset := k.upset.trans h.upset
  retired := List.Subset.trans h.retired k.retired
  spares := fun g => Nat.le_trans (h.spares g) (k.spares g)
  poison := fun tier pa hpa hp => by
    rcases k.poison tier pa hpa hp with hp | hf
    · exact (h.poison tier pa hpa hp).imp_right k.full
    · exact .inr hf

/-- A row whose group has a spare row is retired onto it. -/
theorem retireRow_mem_of_spare {tier pa : Nat} (h : s.mem.sparesUsed tier pa < spareRows tier) :
    (s.retireRow tier pa).mem = { s.mem with
      spares := tset (tier * 256 + groupOf tier pa) (s.mem.sparesUsed tier pa + 1) s.mem.spares
      retired := rowKey tier pa :: s.mem.retired } := by
  unfold State.retireRow
  dsimp only
  rw [if_pos h]
  rfl

/-- A row whose group has none left stays, its poisoned lines for good. -/
theorem retireRow_mem_of_full {tier pa : Nat} (h : spareRows tier ≤ s.mem.sparesUsed tier pa) :
    ∃ stuck defective, (s.retireRow tier pa).mem = { s.mem with stuck := stuck, defective := defective }
      ∧ ∀ k ∈ stuck, k ∈ s.mem.poison ∨ k ∈ s.mem.stuck := by
  have hstuck : ∀ k ∈ ((s.mem.poison.filter (fun k => keyTier k == tier && rowKey tier (keyAddr k) == rowKey tier pa)).filter
      (fun k => !s.mem.stuck.contains k)) ++ s.mem.stuck, k ∈ s.mem.poison ∨ k ∈ s.mem.stuck := fun k hk =>
    (List.mem_append.1 hk).imp_left (fun h => (List.mem_filter.1 (List.mem_filter.1 h).1).1)
  unfold State.retireRow
  dsimp only
  rw [if_neg (Nat.not_lt.2 h)]
  split
  · exact ⟨_, _, rfl, hstuck⟩
  · exact ⟨_, _, rfl, hstuck⟩

theorem scrubs_retireRow_of_spare {tier pa : Nat} (h : s.mem.sparesUsed tier pa < spareRows tier) :
    Scrubs s.mem (s.retireRow tier pa).mem := by
  rw [retireRow_mem_of_spare h]
  refine ⟨rfl, List.subset_cons_self _ _, fun g => ?_, fun _ _ _ hp => .inl hp⟩
  by_cases hg : g = tier * 256 + groupOf tier pa
  · subst hg
    exact Nat.le_trans (Nat.le_succ _) (Nat.le_of_eq (tget_tset_same _ _ _ _).symm)
  · exact Nat.le_of_eq (tget_tset_ne _ _ _ hg).symm

/-- A line poisoned in a group without spare rows, and its row kept in place. -/
theorem scrubs_poison_retireRow {tier pa : Nat} (hpa : pa < tierBytes tier) (h : spareRows tier ≤ s.mem.sparesUsed tier pa) :
    Scrubs s.mem
      (State.retireRow { s with mem := { s.mem with poison := lineKey tier pa :: s.mem.poison } } tier pa).mem := by
  obtain ⟨stuck, defective, heq, hstuck⟩ := retireRow_mem_of_full
    (s := { s with mem := { s.mem with poison := lineKey tier pa :: s.mem.poison } }) h
  rw [heq]
  refine ⟨rfl, List.Subset.refl _, fun _ => Nat.le_refl _, fun tier' pa' hpa' hp => ?_⟩
  have hp' : lineKey tier' pa' ∈ lineKey tier pa :: s.mem.poison ∨ lineKey tier' pa' ∈ s.mem.stuck := hp.elim .inl (hstuck _)
  rcases hp' with hp | hp
  · rcases List.mem_cons.1 hp with hkey | hp
    · obtain ⟨rfl, hline⟩ := lineKey_inj hpa' hpa hkey
      exact .inr (by rw [MemCtl.sparesUsed, groupOf_of_same_line hline]; exact h)
    · exact .inl (.inl hp)
  · exact .inl (.inr hp)

/-- One line that fails: nothing where it is poisoned already; else its row is retired, or there is no spare row for it. -/
theorem scrubFails_scrubs (s : State) (e : Nat × Nat) : Scrubs s.mem (s.scrubFails e).mem
    ∧ (e.1 < 2 → e.2 < tierBytes e.1 → s.mem.isPoisoned e.1 e.2 ∨ rowKey e.1 e.2 ∈ (s.scrubFails e).mem.retired
      ∨ spareRows e.1 ≤ (s.scrubFails e).mem.sparesUsed e.1 e.2) := by
  unfold State.scrubFails
  dsimp only
  split
  case isTrue hskip =>
    refine ⟨.refl _, fun hlo hhi => .inl ?_⟩
    rcases hskip with h | h | h
    · omega
    · omega
    · exact (poisoned_iff _ _ _).1 h
  case isFalse hgo =>
    have hhi : e.2 < tierBytes e.1 := Nat.not_le.1 fun hc => hgo (.inr (.inl hc))
    by_cases hleft : s.mem.sparesUsed e.1 e.2 < spareRows e.1
    · rw [if_pos (decide_eq_true hleft)]
      refine ⟨scrubs_retireRow_of_spare hleft, fun _ _ => .inr (.inl ?_)⟩
      rw [retireRow_mem_of_spare hleft]
      exact List.mem_cons_self
    · rw [if_neg (mt of_decide_eq_true hleft)]
      have hscrubs := scrubs_poison_retireRow (s := s) hhi (Nat.not_lt.1 hleft)
      exact ⟨hscrubs, fun _ _ => .inr (.inr (hscrubs.full (Nat.not_lt.1 hleft)))⟩

theorem winds_scrubFails (s : State) (e : Nat × Nat) : Winds s (s.scrubFails e) := by
  unfold State.scrubFails
  dsimp only
  split
  · exact (Ends.refl s).toWinds
  · split
    · exact winds_retireRow ..
    · exact (winds_mem s _).trans (winds_retireRow ..)

theorem scrubs_foldl (bad : List (Nat × Nat)) (s : State) : Scrubs s.mem (bad.foldl State.scrubFails s).mem := by
  induction bad generalizing s with
  | nil => exact .refl _
  | cons e bad ih => exact (scrubFails_scrubs s e).1.trans (ih _)

/-- Of every failing line the row is retired, or its group has no spare row left, or the line was poisoned before. -/
theorem scrubFails_retires (bad : List (Nat × Nat)) (s : State) {e : Nat × Nat} (he : e ∈ bad) (hlo : e.1 < 2)
    (hhi : e.2 < tierBytes e.1) : s.mem.isPoisoned e.1 e.2 ∨ rowKey e.1 e.2 ∈ (bad.foldl State.scrubFails s).mem.retired
      ∨ spareRows e.1 ≤ (bad.foldl State.scrubFails s).mem.sparesUsed e.1 e.2 := by
  induction bad generalizing s with
  | nil => cases he
  | cons a bad ih =>
    have hfirst := scrubFails_scrubs s a
    have hrest := scrubs_foldl bad (s.scrubFails a)
    rcases List.mem_cons.1 he with rfl | he
    · exact (hfirst.2 hlo hhi).imp_right (Or.imp (fun h => hrest.retired h) hrest.full)
    · rcases ih (s.scrubFails a) he with hp | h
      · exact (hfirst.1.poison _ _ hhi hp).imp_right (fun h => .inr (hrest.full h))
      · exact .inr h

theorem winds_scrub (bad : List (Nat × Nat)) (s : State) : Winds s (bad.foldl State.scrubFails s) :=
  winds_foldl _ winds_scrubFails _ _

/-! ## The end of the scrub (R344, R345) -/

/-- Both tiers blank, the rows of the failing lines retired, step 5 taken. -/
def State.scrubbed (s : State) (bad : List (Nat × Nat)) : State :=
  let s1 := (bad.foldl State.scrubFails s.blankAll).switchCommit
  { s1 with
    mem := { s1.mem with busy := false, kind := 0 }
    flc := { s1.flc with st := if s1.flc.wp then 3 else 2 } }

/-- Fused RETIRED, the UDS unreadable. -/
def State.fusedRetired (s : State) : State := s.setSec { s.sec with retiring := false, fused := .retired, udsFused := true }

theorem exec_tenantSwitchScrubDone {bad : List (Nat × Nat)} (hrun : s.isRun = true) (hswitch : s.sec.switchRun = true) :
    exec (.tenantSwitchScrubDone bad) s = .next (if s.sec.retiring then
      ((s.scrubbed bad).fusedRetired.zeroise (fun n _ => n == 0)).finishSwitch
      else (s.scrubbed bad).finishSwitch.selfReset) :=
  congrArg Host.Outcome.next (if_pos ⟨hrun, hswitch⟩)

/-- `t` is `s` once its switch has ended with the failing lines `bad`. -/
structure SwitchEnded (s : State) (bad : List (Nat × Nat)) (t : State) : Prop where
  epoch : t.sec.epoch = s.sec.epoch + 1
  tenantId : t.sec.tenantId = none
  pending : t.sec.pending = false
  switchRun : t.sec.switchRun = false
  tierA : t.tierA = []
  tierB : t.tierB = []
  busy : t.mem.busy = false
  kind : t.mem.kind = 0
  retired : ∀ e ∈ bad, e.1 < 2 → e.2 < tierBytes e.1 → s.mem.stuck.contains (lineKey e.1 e.2) = false →
    t.mem.sparesUsed e.1 e.2 < spareRows e.1 → rowKey e.1 e.2 ∈ t.mem.retired
  spared : bad = [] → t.mem.retired = s.mem.retired ∧ t.mem.spares = s.mem.spares

/-- What keeps the Thimble's record of the switch, both memories and their controllers, keeps its end. -/
theorem SwitchEnded.keep {bad : List (Nat × Nat)} {u : State} (h : SwitchEnded s bad u) (hmemory : SameMemory u t)
    (hmem : t.mem = u.mem) (hepoch : t.sec.epoch = u.sec.epoch) (htenant : t.sec.tenantId = u.sec.tenantId)
    (hpending : t.sec.pending = u.sec.pending) (hswitch : t.sec.switchRun = u.sec.switchRun) : SwitchEnded s bad t where
  epoch := hepoch.trans h.epoch
  tenantId := htenant.trans h.tenantId
  pending := hpending.trans h.pending
  switchRun := hswitch.trans h.switchRun
  tierA := hmemory.1.trans h.tierA
  tierB := hmemory.2.trans h.tierB
  busy := by rw [hmem]; exact h.busy
  kind := by rw [hmem]; exact h.kind
  retired := by rw [hmem]; exact h.retired
  spared := by rw [hmem]; exact h.spared

/-- Blanking leaves the lines poisoned for good and no other poisoned. -/
theorem blankAll_not_poisoned {tier pa : Nat} (h : s.mem.stuck.contains (lineKey tier pa) = false) :
    ¬ s.blankAll.mem.isPoisoned tier pa := by
  rintro (hp | hp)
  · exact List.not_mem_nil hp
  · exact Bool.noConfusion (h.symm.trans (List.contains_iff_mem.2 hp))

theorem scrubbed_ended (s : State) (bad : List (Nat × Nat)) : SwitchEnded s bad (s.scrubbed bad) := by
  have hwinds := winds_scrub bad s.blankAll
  refine ⟨?_, rfl, rfl, rfl, hwinds.memory.1, hwinds.memory.2, rfl, rfl, fun e he hlo hhi hstuck hspare => ?_, ?_⟩
  · exact congrArg (·.epoch + 1) hwinds.sec
  · rcases scrubFails_retires bad s.blankAll he hlo hhi with hp | hret | hfull
    · exact absurd hp (blankAll_not_poisoned hstuck)
    · exact hret
    · exact absurd hspare (Nat.not_lt.2 hfull)
  · rintro rfl
    exact ⟨rfl, rfl⟩

theorem scrubbed_upset (s : State) (bad : List (Nat × Nat)) : (s.scrubbed bad).mem.upset = [] :=
  (scrubs_foldl bad s.blankAll).upset

theorem scrubbed_pwr (s : State) (bad : List (Nat × Nat)) : (s.scrubbed bad).pwr = s.pwr := (winds_scrub bad s.blankAll).pwr

theorem onlyReports_finishSwitch (s : State) : OnlyReports s s.finishSwitch := by
  unfold State.finishSwitch
  generalize s.ops.filter _ = l
  suffices h : ∀ (a : State), OnlyReports s a → OnlyReports s (l.foldl (fun s (e : Nat × Op) => s.finish e.1 stOk) a) from
    h s (OnlyReports.refl s)
  induction l with
  | nil => exact fun a h => h
  | cons e l ih => exact fun a h => ih _ (h.trans (onlyReports_finish ..))

/-- A switch that is no retirement ends in a module reset. -/
theorem switch_resets {bad : List (Nat × Nat)} (hrun : s.isRun = true) :
    SwitchEnded s bad (s.scrubbed bad).finishSwitch.selfReset
      ∧ (s.scrubbed bad).finishSwitch.selfReset.pwr.phase = .holdup
      ∧ (s.scrubbed bad).finishSwitch.selfReset.pwr.selfRst = true := by
  have hrep := onlyReports_finishSwitch (s.scrubbed bad)
  have hends := hrep.ends
  have hphase : (s.scrubbed bad).finishSwitch.pwr.phase = .run := by
    rw [hends.pwr, scrubbed_pwr]
    exact eq_of_beq hrun
  have hended : SwitchEnded s bad (s.scrubbed bad).finishSwitch := (scrubbed_ended s bad).keep hends.memory
    (hends.mem (scrubbed_upset s bad)) (by rw [hends.sec]) (by rw [hends.sec]) (by rw [hends.sec]) (by rw [hends.sec])
  unfold State.selfReset
  rw [if_pos hphase]
  exact ⟨hended.keep ⟨rfl, rfl⟩ rfl rfl rfl rfl rfl, rfl, rfl⟩

/-- Slot 0 holds no key where none is listed as valid. -/
theorem slot_invalid_of_forall {n : Nat} (h : ∀ e ∈ s.sec.slots, e.1 = n → e.2.valid = false) : (s.slot n).valid = false := by
  unfold State.slot
  revert h
  generalize s.sec.slots = l
  induction l with
  | nil => exact fun _ => rfl
  | cons e l ih =>
    intro h
    rw [tget]
    split
    · exact h e List.mem_cons_self (by omega)
    · exact ih (fun e he => h e (List.mem_cons_of_mem _ he))

/-- A retirement ends fused RETIRED, without the device identity key, in RUN. -/
theorem switch_retires {bad : List (Nat × Nat)} {t : State} (hrun : s.isRun = true)
    (ht : t = ((s.scrubbed bad).fusedRetired.zeroise (fun n _ => n == 0)).finishSwitch) :
    SwitchEnded s bad t ∧ t.sec.fused = .retired ∧ t.sec.udsFused = true ∧ (t.slot 0).valid = false ∧ t.pwr.phase = .run := by
  have hends : Ends (s.scrubbed bad).fusedRetired t := by
    rw [ht]
    exact (ends_zeroise _ _).trans (onlyReports_finishSwitch _).ends
  have hfinish : Ends ((s.scrubbed bad).fusedRetired.zeroise (fun n _ => n == 0)) t := by
    rw [ht]
    exact (onlyReports_finishSwitch _).ends
  have hfused : SwitchEnded s bad (s.scrubbed bad).fusedRetired :=
    (scrubbed_ended s bad).keep ⟨rfl, rfl⟩ rfl rfl rfl rfl rfl
  refine ⟨hfused.keep hends.memory (hends.mem (scrubbed_upset s bad)) (by rw [hends.sec]) (by rw [hends.sec])
    (by rw [hends.sec]) (by rw [hends.sec]), ?_, ?_, ?_, ?_⟩
  · rw [hends.sec]; rfl
  · rw [hends.sec]; rfl
  · exact slot_invalid_of_forall fun e he hn => zeroise_slot_invalid _ (hfinish.slots he) (by simp [hn])
  · rw [hends.pwr]
    exact (congrArg (·.phase) (scrubbed_pwr s bad)).trans (eq_of_beq hrun)

/-! ## The causes of FAULT_SECURE (R343) -/

theorem exec_glitchDetect (s : State) : exec .glitchDetect s =
    .next (if s.sec.slots.any (fun (e : Nat × KeySlot) => e.2.valid) then s.enterFaultSecure 3 else s) := rfl

theorem exec_keySlotIntegrityFault (s : State) (n : Nat) : exec (.keySlotIntegrityFault n) s =
    .next ((s.countError (s.slotPart n) cntLasting).enterFaultSecure 4) := rfl

/-- A report changes nothing in the Thimble. -/
theorem OnlyReports.sec (h : OnlyReports s t) : t.sec = s.sec := by
  unfold OnlyReports at h
  rw [h]
  rfl

/-- In DEPLOYED each cause enters FAULT_SECURE. -/
theorem faults_of_deployed (n : Nat) (h : s.sec.lifecycle = 1) :
    (∃ t, exec .meshBreach s = .next t ∧ t.sec.latch = true ∧ t.sec.cause = 2 ∧ t.secretsGone ∧ SameMemory s t)
      ∧ ((∃ e ∈ s.sec.slots, e.2.valid = true) →
        ∃ t, exec .glitchDetect s = .next t ∧ t.sec.latch = true ∧ t.sec.cause = 3 ∧ t.secretsGone ∧ SameMemory s t)
      ∧ ∃ t, exec (.keySlotIntegrityFault n) s = .next t ∧ t.sec.latch = true ∧ t.sec.cause = 4 ∧ t.secretsGone
        ∧ SameMemory s t := by
  refine ⟨⟨_, rfl, enterFaultSecure_enters 2 h⟩, fun hvalid => ?_, ?_⟩
  · have hany : s.sec.slots.any (fun (e : Nat × KeySlot) => e.2.valid) = true := List.any_eq_true.2 hvalid
    rw [exec_glitchDetect, if_pos hany]
    exact ⟨_, rfl, enterFaultSecure_enters 3 h⟩
  · have hcount := onlyReports_countError s (s.slotPart n) cntLasting
    have hlife : (s.countError (s.slotPart n) cntLasting).sec.lifecycle = 1 := by rw [hcount.sec]; exact h
    obtain ⟨hlatch, hcause, hgone, hmemory⟩ := enterFaultSecure_enters 4 hlife
    exact ⟨_, exec_keySlotIntegrityFault s n, hlatch, hcause, hgone, hcount.sameMemory.trans hmemory⟩

/-- In another lifecycle state no cause does. -/
theorem faults_of_not_deployed (n : Nat) (h : s.sec.lifecycle ≠ 1) :
    exec .meshBreach s = .next s ∧ exec .glitchDetect s = .next s
      ∧ ∃ t, exec (.keySlotIntegrityFault n) s = .next t ∧ OnlyReports s t := by
  have hcount := onlyReports_countError s (s.slotPart n) cntLasting
  have hlife : (s.countError (s.slotPart n) cntLasting).sec.lifecycle ≠ 1 := by rw [hcount.sec]; exact h
  refine ⟨congrArg Host.Outcome.next (enterFaultSecure_of_ne 2 h), ?_, _, ?_, hcount⟩
  · rw [exec_glitchDetect, enterFaultSecure_of_ne 3 h, ite_self]
  · rw [exec_keySlotIntegrityFault, enterFaultSecure_of_ne 4 hlife]

theorem glitchDetect_of_no_key (h : ∀ e ∈ s.sec.slots, e.2.valid = false) : exec .glitchDetect s = .next s := by
  have hnone : ¬ s.sec.slots.any (fun (e : Nat × KeySlot) => e.2.valid) = true := by
    rw [List.any_eq_true]
    rintro ⟨e, he, hv⟩
    exact Bool.noConfusion ((h e he).symm.trans hv)
  rw [exec_glitchDetect, if_neg hnone]

theorem eq_or_eq_of_mem_two {α β : Type} {a b c : α} {x y z : β} (h : (c, z) ∈ [(a, x), (b, y)]) :
    (c = a ∧ z = x) ∨ (c = b ∧ z = y) := by
  rcases List.mem_cons.1 h with h | h
  · exact .inl (Prod.mk.inj h)
  · exact .inr (Prod.mk.inj (List.mem_singleton.1 h))

/-- Settles O53: the start of a switch, its end with the scrub's failing lines, and the entry into FAULT_SECURE. -/
theorem tenantSwitchAndFaultSecure : Obligations.TenantSwitchAndFaultSecure := by
  refine ⟨⟨fun s c opc id o hc hw => ⟨fun hswitch hretire => ?_, fun hbad => ?_⟩, fun s bad hrun hswitch => ?_⟩,
    fun s n => ⟨faults_of_deployed n, faults_of_not_deployed n, glitchDetect_of_no_key⟩⟩
  · rcases eq_or_eq_of_mem_two hc with ⟨rfl, rfl⟩ | ⟨rfl, rfl⟩
    · obtain ⟨hgone, hpend, hrunning, -, hrest⟩ := switchStart_starts (s.running id o) false
      rw [exec_tenantSwitch hw, hswitch rfl]
      exact ⟨_, rfl, hgone, hpend, hrunning, fun h => absurd h (by decide), hrest⟩
    · obtain ⟨hgone, hpend, hrunning, hret, hrest⟩ := switchStart_starts (s.running id o) true
      exact ⟨_, exec_lifecycleRetire_ok hw (hretire rfl), hgone, hpend, hrunning, fun _ => hret rfl, hrest⟩
  · rcases eq_or_eq_of_mem_two hc with ⟨rfl, rfl⟩ | ⟨rfl, rfl⟩
    · have hz : zeroAt o.bytes 8 56 = false := hbad.elim (·.2) (fun h => absurd h.1 (by decide))
      rw [exec_tenantSwitch hw, hz]
      rfl
    · exact exec_lifecycleRetire_bad hw (hbad.elim (fun h => absurd h.1 (by decide)) (·.2))
  · rw [exec_tenantSwitchScrubDone hrun hswitch]
    cases hretiring : s.sec.retiring
    · obtain ⟨hended, hphase, hself⟩ := switch_resets (bad := bad) hrun
      exact ⟨_, rfl, hended.epoch, hended.tenantId, hended.pending, hended.switchRun, hended.tierA, hended.tierB,
        hended.busy, hended.kind, hended.retired, hended.spared, fun _ => ⟨hphase, hself⟩, fun h => Bool.noConfusion h⟩
    · obtain ⟨hended, hretired⟩ := switch_retires (bad := bad) hrun rfl
      exact ⟨_, rfl, hended.epoch, hended.tenantId, hended.pending, hended.switchRun, hended.tierA, hended.tierB,
        hended.busy, hended.kind, hended.retired, hended.spared, fun h => Bool.noConfusion h, fun _ => hretired⟩

end Sys2Proof.Machine
end

section
/-! Lengths of byte strings: slices, numbers, pieces, cipher blocks, the output of a DRBG. -/

namespace Sys2Proof.Machine

@[simp] theorem length_slice (bs : Bytes) (off n : Nat) : (slice bs off n).length = n := by
  simp only [slice, zeros, List.length_append, List.length_take, List.length_drop, List.length_replicate]
  omega

@[simp] theorem length_leBytes (n v : Nat) : (leBytes n v).length = n := by
  induction n generalizing v with
  | zero => rfl
  | succ n ih => rw [leBytes, List.length_cons, ih]

@[simp] theorem length_beBytes (n v : Nat) : (beBytes n v).length = n := by
  rw [beBytes, List.length_reverse, length_leBytes]

/-- A string of `k` whole pieces is cut into `k` pieces, each whole. -/
theorem chunks_whole {n : Nat} (hn : 0 < n) {fuel k : Nat} {bs : Bytes} (hlen : bs.length = n * k) (hfuel : k ≤ fuel) :
    (chunks n fuel bs).length = k ∧ ∀ x ∈ chunks n fuel bs, x.length = n := by
  induction k generalizing fuel bs with
  | zero =>
    obtain rfl := List.length_eq_zero_iff.1 hlen
    cases fuel <;> exact ⟨rfl, fun _ h => absurd h List.not_mem_nil⟩
  | succ k ih =>
    obtain ⟨fuel, rfl⟩ := Nat.exists_eq_add_of_lt (Nat.zero_lt_of_lt hfuel)
    rw [Nat.mul_succ] at hlen
    have hne : bs.isEmpty = false := by
      cases bs with
      | nil => simp at hlen; omega
      | cons b bs => rfl
    obtain ⟨hcount, hall⟩ := ih (fuel := fuel) (bs := bs.drop n) (by rw [List.length_drop]; omega) (by omega)
    rw [Nat.zero_add, chunks, hne, if_neg Bool.false_ne_true]
    refine ⟨by rw [List.length_cons, hcount], fun x hx => ?_⟩
    rcases List.mem_cons.1 hx with rfl | hx
    · rw [List.length_take]; omega
    · exact hall x hx

theorem length_xorN (a b : List Nat) : (xorN a b).length = min a.length b.length := List.length_zipWith

theorem length_mixAll (k0 k1 k2 k3 : Nat) (l : List Nat) : (mixAll k0 k1 k2 k3 l).length = 16 := rfl

/-- Rounds with keys of 16 bytes keep a block at 16 bytes. -/
theorem length_aesRounds (ks : List (List Nat)) (hks : ∀ k ∈ ks, k.length = 16) (l : List Nat) (hl : l.length = 16) :
    (aesRounds ks l).length = 16 := by
  induction ks generalizing l with
  | nil => exact hl
  | cons k ks ih =>
    have hk := hks k List.mem_cons_self
    cases ks with
    | nil => rw [aesRounds, length_xorN, hk, List.length_map]; rfl
    | cons k' ks =>
      refine ih (fun x hx => hks x (List.mem_cons_of_mem _ hx)) _ ?_
      rw [length_xorN, length_mixAll, hk]
      rfl

theorem getD_of_lt {α : Type} {l : List α} {i : Nat} {d : α} (h : i < l.length) : l.getD i d = l[i] := by
  rw [List.getD_eq_getElem?_getD, List.getElem?_eq_getElem h, Option.getD_some]

/-- The key schedule extends eight words of 4 bytes by words of 4 bytes. -/
theorem aesExpand_words (n i rc : Nat) (w : List (List Nat)) (hw : ∀ x ∈ w, x.length = 4) (hlen : 8 ≤ w.length) :
    ∀ x ∈ aesExpand n i rc w, x.length = 4 := by
  induction n generalizing i rc w with
  | zero => exact hw
  | succ n ih =>
    have hget : ∀ k, k < 8 → (w.getD k []).length = 4 := fun k hk => by
      rw [getD_of_lt (by omega)]
      exact hw _ (List.getElem_mem _)
    rw [aesExpand]
    refine ih _ _ _ (fun x hx => ?_) (by rw [List.length_cons]; omega)
    rcases List.mem_cons.1 hx with rfl | hx
    · rw [List.length_zipWith, hget 7 (by omega)]
      split
      · rfl
      · split
        · rw [List.length_map, hget 0 (by omega)]; rfl
        · rw [hget 0 (by omega)]; rfl
    · exact hw x hx

theorem aesGroup_words (w : List (List Nat)) (hw : ∀ x ∈ w, x.length = 4) : ∀ k ∈ aesGroup w, k.length = 16 := by
  induction w using aesGroup.induct with
  | case1 a b c d r ih =>
    simp only [List.mem_cons, forall_eq_or_imp] at hw
    obtain ⟨ha, hb, hc, hd, hr⟩ := hw
    intro k hk
    rcases List.mem_cons.1 hk with rfl | hk
    · simp only [List.length_append, ha, hb, hc, hd]
    · exact ih hr k hk
  | case2 w hne =>
    intro k hk
    rw [aesGroup] at hk
    · exact absurd hk List.not_mem_nil
    · exact hne

theorem aesKeys_length (key : Bytes) : ∀ k ∈ aesKeys key, k.length = 16 := by
  obtain ⟨hcount, hall⟩ := chunks_whole (n := 4) (by omega) (fuel := (slice key 0 32).length + 1) (k := 8)
    (length_slice key 0 32) (by rw [length_slice]; omega)
  refine aesGroup_words _ (fun x hx => ?_)
  refine aesExpand_words 52 8 1 _ (fun x hx => ?_) ?_ x (List.mem_reverse.1 hx)
  · obtain ⟨y, hy, rfl⟩ := List.mem_map.1 (List.mem_reverse.1 hx)
    rw [List.length_map]
    exact hall y hy
  · rw [List.length_reverse, List.length_map]
    exact Nat.le_of_eq hcount.symm

@[simp] theorem length_aesEncrypt (key blk : Bytes) (hblk : blk.length = 16) : (aesEncrypt key blk).length = 16 := by
  have hkeys := aesKeys_length key
  unfold aesEncrypt
  split
  · exact hblk
  · rename_i k ks heq
    rw [heq] at hkeys
    rw [List.length_map]
    refine length_aesRounds ks (fun x hx => hkeys x (List.mem_cons_of_mem _ hx)) _ ?_
    rw [length_xorN, List.length_map, length_slice, hkeys k List.mem_cons_self]
    rfl

theorem length_drbgBlocks (key : Bytes) (n v : Nat) : (drbgBlocks key n v).length = 16 * n := by
  induction n generalizing v with
  | zero => rfl
  | succ n ih =>
    rw [drbgBlocks, List.length_append, ih, length_aesEncrypt _ _ (length_beBytes _ _)]
    omega

/-- A request brings the bytes it asks for (R349). -/
theorem length_drbgGenerate (d : Drbg) (n : Nat) : (drbgGenerate d n).1.length = n := by
  unfold drbgGenerate
  dsimp only
  rw [List.length_take, length_drbgBlocks, ceilDiv]
  omega

/-! ## What the conditioned path takes: open values alone (R348) -/

variable (s : State)

theorem condBlocks_state (n : Nat) : (State.condBlocks n s).2 = { s with free := (State.condBlocks n s).2.free } := by
  induction n generalizing s with
  | zero => rfl
  | succ n ih =>
    rw [State.condBlocks]
    dsimp only
    rw [ih]
    rfl

theorem condBytes_state (n : Nat) : (s.condBytes n).2 = { s with free := (s.condBytes n).2.free } := condBlocks_state s _

theorem drbgDraw_state (d : Drbg) (n : Nat) : (s.drbgDraw d n).2.2 = { s with free := (s.drbgDraw d n).2.2.free } := by
  unfold State.drbgDraw
  dsimp only
  split
  · exact condBytes_state s 48
  · rfl

theorem length_drbgDraw (d : Drbg) (n : Nat) : (s.drbgDraw d n).1.length = n := length_drbgGenerate _ _

end Sys2Proof.Machine
end

section
/-! The Thimble's upkeep and the random number source (R3, R346 to R351, R391). -/

namespace Sys2Proof.Machine

variable {s t : State}

/-! ## A report over one replaced part of the state -/

theorem OnlyReports.rng (h : OnlyReports s t) : t.rng = s.rng := h.ends.rng

theorem OnlyReports.fw (h : OnlyReports s t) : t.fw = s.fw := h.ends.fw

theorem OnlyReports.of_setSec {x : Sec} (h : OnlyReports (s.setSec x) t) : OnlyReports { s with sec := t.sec } t := by
  rw [h.sec]
  exact h

theorem OnlyReports.of_setRng {x : Rng} (h : OnlyReports (s.setRng x) t) : OnlyReports { s with rng := t.rng } t := by
  rw [h.rng]
  exact h

/-! ## OPERATOR_KEY, masks, fuses (R3, R349, R391) -/

theorem setOperatorKey_of_point {key : Bytes} (h : (ecParse key).isSome = true) :
    s.setOperatorKey key = (s.setSec { s.sec with opKey := some key, seqFloor := 0 }, stOk) := by
  obtain ⟨p, hp⟩ := Option.isSome_iff_exists.1 h
  rw [State.setOperatorKey, hp]

theorem setOperatorKey_of_no_point {key : Bytes} (h : (ecParse key).isSome = false) :
    s.setOperatorKey key = (s, stSecField) := by
  have hnone : ecParse key = none := by simpa using h
  rw [State.setOperatorKey, hnone]

theorem exec_mgmtCred {id : Nat} {o : Op} (key : Bytes) (hw : Waits s 0x96 id o) (hz : zeroAt o.bytes 8 8 = true)
    (hz' : zeroAt o.bytes 24 40 = true) (hreach : s.reachable 0 = true) : exec (.mgmtCred id key) s =
      .next ((s.setOperatorKey (slice key 0 97)).1.finish id (s.setOperatorKey (slice key 0 97)).2) := by
  refine congrArg Host.Outcome.next ((onReady_of_waits hw _).trans ?_)
  rw [hz, hz', hreach]
  rfl

theorem mgmtCred_sets {id : Nat} {o : Op} {key : Bytes} (hw : Waits s 0x96 id o) (hz : zeroAt o.bytes 8 8 = true)
    (hz' : zeroAt o.bytes 24 40 = true) (hreach : s.reachable 0 = true) (hpoint : (ecParse (slice key 0 97)).isSome = true) :
    ∃ t, exec (.mgmtCred id key) s = .next t ∧ Ended t id stOk
      ∧ t.sec = { s.sec with opKey := some (slice key 0 97), seqFloor := 0 } ∧ OnlyReports { s with sec := t.sec } t := by
  have hrep := onlyReports_finish (s.setSec { s.sec with opKey := some (slice key 0 97), seqFloor := 0 }) id stOk []
  rw [exec_mgmtCred key hw hz hz' hreach, setOperatorKey_of_point hpoint]
  exact ⟨_, rfl, finish_ended _ _ _ _, hrep.sec, hrep.of_setSec⟩

theorem mgmtCred_refuses {id : Nat} {o : Op} {key : Bytes} (hw : Waits s 0x96 id o) (hz : zeroAt o.bytes 8 8 = true)
    (hz' : zeroAt o.bytes 24 40 = true) (hreach : s.reachable 0 = true) (hpoint : (ecParse (slice key 0 97)).isSome = false) :
    exec (.mgmtCred id key) s = .next (s.finish id stSecField) := by
  rw [exec_mgmtCred key hw hz hz' hreach, setOperatorKey_of_no_point hpoint]

theorem exec_keyMaskRefresh {d : Drbg} (hup : s.thimbleUp = true) (hd : s.sec.maskDrbg = some d) :
    exec .keyMaskRefresh s = .next ((s.drbgDraw d 8192).2.2.setSec { (s.drbgDraw d 8192).2.2.sec with
      masks := (s.drbgDraw d 8192).1, maskDrbg := some (s.drbgDraw d 8192).2.1 }) := by
  change execKeyMaskRefresh s = _
  rw [execKeyMaskRefresh, hup, hd]

theorem exec_keyMaskRefresh_of_none (h : s.thimbleUp = false ∨ s.sec.maskDrbg = none) : exec .keyMaskRefresh s = .next s := by
  change execKeyMaskRefresh s = _
  rcases h with h | h <;> rw [execKeyMaskRefresh, h]
  cases s.thimbleUp <;> rfl

theorem keyMaskRefresh_masks {d : Drbg} (hup : s.thimbleUp = true) (hd : s.sec.maskDrbg = some d) :
    ∃ t, exec .keyMaskRefresh s = .next t ∧ t.sec.masks.length = 8192 ∧ t.sec.maskDrbg.isSome = true
      ∧ t.sec = { s.sec with masks := t.sec.masks, maskDrbg := t.sec.maskDrbg } ∧ t = { s with sec := t.sec, free := t.free } := by
  have hstate := drbgDraw_state s d 8192
  refine ⟨_, exec_keyMaskRefresh hup hd, length_drbgDraw s d 8192, rfl, ?_, ?_⟩
  · rw [hstate]; rfl
  · rw [hstate]; rfl

theorem exec_fusingToDeployed (s : State) : exec .fusingToDeployed s =
    .next (if s.sec.fused = .factory then s.setSec { s.sec with fused := .deployed } else s) := rfl

/-! ## A block that fails or passes (R346) -/

/-- The random source after a failing block: counted, remembered among the last 1,024, its source restarting. -/
def Rng.afterFail (r : Rng) (source : Nat) : Rng :=
  let r1 := { r with
    blocks := r.blocks + 1, fails := r.fails ++ [r.blocks + 1], running := r.running.filter (· != source)
    startFails := if r.ended then r.startFails else r.startFails + 1 }
  { r1 with fails := r1.recent }

/-- A failing block counted and reported. -/
def State.failReported (s : State) (source test : Nat) : State :=
  ((s.setRng (s.rng.afterFail source)).countMod cntRngHealthFail).raise srcRng evRngHealthFail 0xFF
    (leBytes 1 source ++ leBytes 1 test)

theorem blockFails_eq (s : State) (source test : Nat) : s.blockFails source test =
    if s.rng.passed ∧ !s.rng.alarm ∧ 3 ≤ (s.rng.afterFail source).fails.length then (s.failReported source test).rngAlarm 1
    else s.failReported source test := rfl

/-- The failing blocks among the last 1,024 after one more: those that were, and this one. -/
theorem length_afterFail_fails (r : Rng) (source : Nat) : (r.afterFail source).fails.length =
    (r.fails.filter (fun n => decide (r.blocks + 1 < n + 1024))).length + 1 := by
  have h : (r.afterFail source).fails = (r.fails ++ [r.blocks + 1]).filter (fun n => decide (r.blocks + 1 < n + 1024)) := rfl
  rw [h, List.filter_append, List.length_append, List.filter_cons_of_pos (by rw [decide_eq_true_eq]; omega)]
  rfl

theorem afterFail_running (r : Rng) (source : Nat) : (r.afterFail source).running.contains source = false := by
  simp [Rng.afterFail]

theorem failReported_onlyReports (s : State) (source test : Nat) :
    OnlyReports (s.setRng (s.rng.afterFail source)) (s.failReported source test) :=
  (onlyReports_count ..).trans (onlyReports_raise ..)

theorem failReported_rng (s : State) (source test : Nat) : (s.failReported source test).rng = s.rng.afterFail source :=
  (failReported_onlyReports s source test).rng

/-- A block fails while the start-up test has not passed: no alarm. -/
theorem blockFails_of_not_passed (source test : Nat) (h : s.rng.passed = false) :
    s.blockFails source test = s.failReported source test := by
  rw [blockFails_eq, if_neg (by simp [h])]

/-! ## The alarm (R346) -/

/-- The alarm set and reported. -/
def State.alarmRaised (s : State) (cause : Nat) : State :=
  (s.setRng { s.rng with alarm := true, stopped := true }).raise srcRng evRngFatal 0xFF (leBytes 1 cause)

theorem alarmRaised_onlyReports (s : State) (cause : Nat) :
    OnlyReports (s.setRng { s.rng with alarm := true, stopped := true }) (s.alarmRaised cause) := onlyReports_raise ..

theorem rngAlarm_eq (s : State) (cause : Nat) : s.rngAlarm cause = (s.alarmRaised cause).enterFaultSecure 1 := rfl

theorem enterFaultSecure_rng (s : State) (cause : Nat) : (s.enterFaultSecure cause).rng = s.rng := by
  by_cases h : s.sec.lifecycle = 1
  · exact (ends_enterFaultSecure cause h).rng
  · rw [enterFaultSecure_of_ne cause h]

theorem enterFaultSecure_fw (s : State) (cause : Nat) : (s.enterFaultSecure cause).fw = s.fw := by
  by_cases h : s.sec.lifecycle = 1
  · exact (ends_enterFaultSecure cause h).fw
  · rw [enterFaultSecure_of_ne cause h]

theorem rngAlarm_rng (s : State) (cause : Nat) : (s.rngAlarm cause).rng = { s.rng with alarm := true, stopped := true } := by
  rw [rngAlarm_eq, enterFaultSecure_rng, (alarmRaised_onlyReports s cause).rng]
  rfl

theorem rngAlarm_fw (s : State) (cause : Nat) : (s.rngAlarm cause).fw = s.fw := by
  rw [rngAlarm_eq, enterFaultSecure_fw, (alarmRaised_onlyReports s cause).fw]
  rfl

/-- In DEPLOYED the alarm enters FAULT_SECURE with cause 1. -/
theorem rngAlarm_faultSecure (cause : Nat) (h : s.sec.lifecycle = 1) :
    (s.rngAlarm cause).sec.latch = true ∧ (s.rngAlarm cause).sec.cause = 1 ∧ (s.rngAlarm cause).secretsGone := by
  have hlife : (s.alarmRaised cause).sec.lifecycle = 1 := by rw [(alarmRaised_onlyReports s cause).sec]; exact h
  obtain ⟨hlatch, hcause, hgone, -⟩ := enterFaultSecure_enters 1 hlife
  rw [rngAlarm_eq]
  exact ⟨hlatch, hcause, hgone⟩

/-- A failing block with the start-up test passed and no alarm yet: the alarm at the third failure within 1,024 blocks. -/
theorem blockFails_of_passed (source test : Nat) (hpassed : s.rng.passed = true) (halarm : s.rng.alarm = false) :
    s.blockFails source test =
      if 2 ≤ (s.rng.fails.filter (fun n => decide (s.rng.blocks + 1 < n + 1024))).length then
        (s.failReported source test).rngAlarm 1
      else s.failReported source test := by
  rw [blockFails_eq, hpassed, halarm, length_afterFail_fails]
  simp

/-- Whatever becomes of the alarm, a failing block is counted and its source stops. -/
theorem blockFails_rng (s : State) (source test : Nat) : ∃ alarm stopped,
    (s.blockFails source test).rng = { s.rng.afterFail source with alarm := alarm, stopped := stopped } := by
  rw [blockFails_eq]
  split
  · exact ⟨true, true, by rw [rngAlarm_rng, failReported_rng]⟩
  · exact ⟨_, _, failReported_rng s source test⟩

theorem blockFails_fatal (source test : Nat) (hpassed : s.rng.passed = true) (halarm : s.rng.alarm = false)
    (hthird : 2 ≤ (s.rng.fails.filter (fun n => decide (s.rng.blocks + 1 < n + 1024))).length) :
    (s.blockFails source test).rng.alarm = true ∧ (s.sec.lifecycle = 1 → (s.blockFails source test).sec.latch = true
      ∧ (s.blockFails source test).sec.cause = 1 ∧ (s.blockFails source test).secretsGone) := by
  rw [blockFails_of_passed source test hpassed halarm, if_pos hthird]
  refine ⟨by rw [rngAlarm_rng], fun h => rngAlarm_faultSecure 1 ?_⟩
  rw [(failReported_onlyReports s source test).sec]
  exact h

theorem blockFails_not_fatal (source test : Nat) (hpassed : s.rng.passed = true) (halarm : s.rng.alarm = false)
    (hfew : (s.rng.fails.filter (fun n => decide (s.rng.blocks + 1 < n + 1024))).length < 2) :
    (s.blockFails source test).rng.alarm = false := by
  rw [blockFails_of_passed source test hpassed halarm, if_neg (Nat.not_le.2 hfew), failReported_rng]
  exact halarm

/-- A block that passes is counted; the raw FIFO takes it while its source is tapped (R351). -/
theorem blockPasses_spec (s : State) (source : Nat) (bits : Bytes) :
    (s.blockPasses source bits).rng =
        { s.rng with blocks := s.rng.blocks + 1, fifo := (s.blockPasses source bits).rng.fifo }
      ∧ s.blockPasses source bits = { s with rng := (s.blockPasses source bits).rng }
      ∧ (s.rng.tap = false → (s.blockPasses source bits).rng.fifo = s.rng.fifo) :=
  ⟨rfl, rfl, fun h => if_neg (by simp [h])⟩

/-! ## RNG_BLOCK_TEST -/

theorem exec_rngBlockTest_of_stopped {src : Nat} (bits : Bytes) (h : s.isRun = false ∨ s.rng.running.contains src = false) :
    exec (.rngBlockTest src bits) s = .next s :=
  congrArg Host.Outcome.next (if_pos (by simpa using h))

/-- A block of a source into which nothing is injected. -/
theorem exec_rngBlockTest_own {src : Nat} (bits : Bytes) (hrun : s.isRun = true) (hsrc : s.rng.running.contains src = true)
    (hinj : s.rng.inject = false ∨ s.rng.tapSrc ≠ src) : exec (.rngBlockTest src bits) s =
      .next (if blockTest (blockBits (slice bits 0 128)) = 0 then s.blockPasses src (slice bits 0 128)
        else s.blockFails src (blockTest (blockBits (slice bits 0 128)))) := by
  have hnot : ¬ (s.rng.inject = true ∧ s.rng.tapSrc = src) := by
    rintro ⟨h, h'⟩
    exact hinj.elim (fun hf => Bool.noConfusion (h.symm.trans hf)) (fun hne => hne h')
  change execRngBlockTest src bits s = _
  rw [execRngBlockTest, if_neg (by simp only [hrun, hsrc]; decide)]
  dsimp only
  rw [if_neg (fun h => hnot h.1), if_neg hnot, if_neg hnot]

theorem exec_rngBlockTest_short {src : Nat} (bits : Bytes) (hrun : s.isRun = true) (hsrc : s.rng.running.contains src = true)
    (hinj : s.rng.inject = true) (htap : s.rng.tapSrc = src) (hshort : s.rng.injected.length < 128) :
    exec (.rngBlockTest src bits) s = .next s := by
  change execRngBlockTest src bits s = _
  rw [execRngBlockTest, if_neg (by simp only [hrun, hsrc]; decide)]
  dsimp only
  rw [if_pos ⟨⟨hinj, htap⟩, hshort⟩]

/-- The words injected that the next block uses are gone. -/
def State.injectedTaken (s : State) : State := s.setRng { s.rng with injected := s.rng.injected.drop 128 }

/-- A block made of the words injected (R351). -/
theorem exec_rngBlockTest_injected {src : Nat} (bits : Bytes) (hrun : s.isRun = true)
    (hsrc : s.rng.running.contains src = true) (hinj : s.rng.inject = true) (htap : s.rng.tapSrc = src)
    (hlong : 128 ≤ s.rng.injected.length) : exec (.rngBlockTest src bits) s =
      .next (if blockTest (blockBits (slice s.rng.injected 0 128)) = 0 then
          s.injectedTaken.blockPasses src (slice s.rng.injected 0 128)
        else s.injectedTaken.blockFails src (blockTest (blockBits (slice s.rng.injected 0 128)))) := by
  have hboth : s.rng.inject = true ∧ s.rng.tapSrc = src := ⟨hinj, htap⟩
  change execRngBlockTest src bits s = _
  rw [execRngBlockTest, if_neg (by simp only [hrun, hsrc]; decide)]
  dsimp only
  rw [if_neg (fun h => Nat.not_lt.2 hlong h.2), if_pos hboth, if_pos hboth]
  rfl

theorem rngBlockTest_injected {src : Nat} (bits : Bytes) (hrun : s.isRun = true)
    (hsrc : s.rng.running.contains src = true) (hinj : s.rng.inject = true) (htap : s.rng.tapSrc = src)
    (hlong : 128 ≤ s.rng.injected.length) : ∃ t, exec (.rngBlockTest src bits) s = .next t
      ∧ t.rng.injected = s.rng.injected.drop 128 ∧ t.rng.blocks = s.rng.blocks + 1
      ∧ (t.rng.running.contains src = true ↔ blockTest (blockBits (slice s.rng.injected 0 128)) = 0) := by
  rw [exec_rngBlockTest_injected bits hrun hsrc hinj htap hlong]
  by_cases hpass : blockTest (blockBits (slice s.rng.injected 0 128)) = 0
  · rw [if_pos hpass]
    exact ⟨_, rfl, rfl, rfl, fun _ => hpass, fun _ => hsrc⟩
  · rw [if_neg hpass]
    obtain ⟨alarm, stopped, hrng⟩ := blockFails_rng s.injectedTaken src (blockTest (blockBits (slice s.rng.injected 0 128)))
    refine ⟨_, rfl, by rw [hrng]; rfl, by rw [hrng]; rfl, fun h => ?_, fun h => absurd h hpass⟩
    rw [hrng] at h
    exact Bool.noConfusion (h.symm.trans (afterFail_running s.injectedTaken.rng src))

theorem rngBlockTest_passes {src : Nat} (bits : Bytes) (hrun : s.isRun = true) (hsrc : s.rng.running.contains src = true)
    (hinj : s.rng.inject = false ∨ s.rng.tapSrc ≠ src) (hpass : blockTest (blockBits (slice bits 0 128)) = 0) :
    ∃ t, exec (.rngBlockTest src bits) s = .next t
      ∧ t.rng = { s.rng with blocks := s.rng.blocks + 1, fifo := t.rng.fifo } ∧ t = { s with rng := t.rng }
      ∧ (s.rng.tap = false → t.rng.fifo = s.rng.fifo) := by
  rw [exec_rngBlockTest_own bits hrun hsrc hinj, if_pos hpass]
  exact ⟨_, rfl, blockPasses_spec s src _⟩

theorem rngBlockTest_fails {src : Nat} (bits : Bytes) (hrun : s.isRun = true) (hsrc : s.rng.running.contains src = true)
    (hinj : s.rng.inject = false ∨ s.rng.tapSrc ≠ src) (hfail : blockTest (blockBits (slice bits 0 128)) ≠ 0) :
    ∃ t, exec (.rngBlockTest src bits) s = .next t
      ∧ t.rng.running.contains src = false ∧ t.rng.blocks = s.rng.blocks + 1
      ∧ (s.rng.passed = false → t.rng.alarm = s.rng.alarm ∧ OnlyReports { s with rng := t.rng } t)
      ∧ (s.rng.passed = true → s.rng.alarm = false →
        (2 ≤ (s.rng.fails.filter (fun n => decide (s.rng.blocks + 1 < n + 1024))).length → t.rng.alarm = true
          ∧ (s.sec.lifecycle = 1 → t.sec.latch = true ∧ t.sec.cause = 1 ∧ t.secretsGone))
        ∧ ((s.rng.fails.filter (fun n => decide (s.rng.blocks + 1 < n + 1024))).length < 2 → t.rng.alarm = false)) := by
  rw [exec_rngBlockTest_own bits hrun hsrc hinj, if_neg hfail]
  generalize blockTest (blockBits (slice bits 0 128)) = test
  obtain ⟨alarm, stopped, hrng⟩ := blockFails_rng s src test
  refine ⟨_, rfl, ?_, ?_, fun hnot => ?_, fun hpassed halarm =>
    ⟨blockFails_fatal src test hpassed halarm, blockFails_not_fatal src test hpassed halarm⟩⟩
  · rw [hrng]; exact afterFail_running s.rng src
  · rw [hrng]; rfl
  · rw [blockFails_of_not_passed src test hnot]
    exact ⟨by rw [failReported_rng]; rfl, (failReported_onlyReports s src test).of_setRng⟩

/-! ## The repetition count (R346) -/

theorem best_le_longestRun (l : List Bool) (prev : Bool) (run best : Nat) : best ≤ longestRun l prev run best := by
  induction l generalizing prev run best with
  | nil => exact Nat.le_refl _
  | cons b l ih => exact Nat.le_trans (Nat.le_max_left ..) (ih ..)

/-- `k` equal bits that continue a run of `run` are a run of `run + k`. -/
theorem longestRun_continued (x : Bool) (k : Nat) (r : List Bool) (run best : Nat) (hk : 0 < k) :
    run + k ≤ longestRun (List.replicate k x ++ r) x run best := by
  induction k generalizing run best with
  | zero => omega
  | succ k ih =>
    rw [List.replicate_succ, List.cons_append, longestRun, if_pos rfl]
    rcases Nat.eq_zero_or_pos k with rfl | hk
    · exact Nat.le_trans (Nat.le_max_right ..) (best_le_longestRun ..)
    · have h := ih (run + 1) (max best (run + 1)) hk
      omega

/-- A run of `k` equal bits anywhere is found. -/
theorem le_longestRun (l r : List Bool) (x : Bool) (k : Nat) (prev : Bool) (run best : Nat) (hk : 2 ≤ k) :
    k ≤ longestRun (l ++ List.replicate k x ++ r) prev run best := by
  induction l generalizing prev run best with
  | cons b l ih => exact ih ..
  | nil =>
    obtain ⟨k, rfl⟩ := Nat.exists_eq_add_of_le' hk
    rw [List.nil_append, List.replicate_succ, List.cons_append, longestRun]
    have h := longestRun_continued x (k + 1) r (if x = prev then run + 1 else 1)
      (max best (if x = prev then run + 1 else 1)) (Nat.succ_pos k)
    have hrun : 1 ≤ if x = prev then run + 1 else 1 := by split <;> omega
    omega

theorem blockTest_of_run (x : Bool) (l r : List Bool) : blockTest (l ++ List.replicate 81 x ++ r) = 1 := by
  have hrun := fun b => le_longestRun l r x 81 b 0 0 (by omega)
  have hne : l ++ List.replicate 81 x ++ r ≠ [] := by simp
  obtain ⟨b, bs, hbits⟩ := List.exists_cons_of_ne_nil hne
  rw [hbits] at hrun ⊢
  exact if_pos (hrun b)

/-! ## The end of the start-up test (R347) -/

/-- `t` has the Thimble, the firmware and the start-up record of `s`, and `n` more failing blocks, the last one number `b`. -/
structure StartFails (s t : State) (n b : Nat) : Prop where
  passed : t.rng.passed = s.rng.passed
  alarm : t.rng.alarm = s.rng.alarm
  startFails : t.rng.startFails = s.rng.startFails + n
  blocks : t.rng.blocks = b
  sec : t.sec = s.sec
  fw : t.fw = s.fw

theorem ended_eq_false {r : Rng} (hpassed : r.passed = false) (halarm : r.alarm = false) : r.ended = false := by
  rw [Rng.ended, hpassed, halarm]
  rfl

/-- One failing block of the start-up test. -/
theorem startFail_counts {f : Nat × Nat × Nat} (hpassed : s.rng.passed = false) (halarm : s.rng.alarm = false)
    (hf : s.rng.blocks < f.1 ∧ f.1 ≤ 65536 ∧ f.2.1 < 64 ∧ (f.2.2 = 1 ∨ f.2.2 = 2)) : StartFails s (s.startFail f) 1 f.1 := by
  have hended : s.rng.ended = false := ended_eq_false hpassed halarm
  have heq : s.startFail f = (s.setRng { s.rng with blocks := f.1 - 1 }).failReported f.2.1 f.2.2 :=
    (if_pos hf).trans (blockFails_of_not_passed f.2.1 f.2.2 hpassed)
  have hrng := failReported_rng (s.setRng { s.rng with blocks := f.1 - 1 }) f.2.1 f.2.2
  have hrep := failReported_onlyReports (s.setRng { s.rng with blocks := f.1 - 1 }) f.2.1 f.2.2
  rw [heq]
  refine ⟨by rw [hrng]; rfl, by rw [hrng]; rfl, ?_, ?_, hrep.sec, hrep.fw⟩
  · rw [hrng]
    exact if_neg (by simp [Rng.ended, hpassed, halarm])
  · rw [hrng]
    change f.1 - 1 + 1 = f.1
    omega

/-- The failing blocks that come with the end of the start-up test, in the order of their tests. -/
theorem startFails_foldl (fails : List (Nat × Nat × Nat)) (s : State) (hpassed : s.rng.passed = false)
    (halarm : s.rng.alarm = false)
    (hall : ∀ f ∈ fails, s.rng.blocks < f.1 ∧ f.1 ≤ 65536 ∧ f.2.1 < 64 ∧ (f.2.2 = 1 ∨ f.2.2 = 2))
    (hord : fails.Pairwise (fun a b => a.1 < b.1)) :
    ∃ b, StartFails s (fails.foldl State.startFail s) fails.length b := by
  induction fails generalizing s with
  | nil => exact ⟨_, rfl, rfl, rfl, rfl, rfl, rfl⟩
  | cons f fails ih =>
    obtain ⟨hlt, hord⟩ := List.pairwise_cons.1 hord
    have hone := startFail_counts hpassed halarm (hall f List.mem_cons_self)
    obtain ⟨b, hrest⟩ := ih (s.startFail f) (hone.passed.trans hpassed) (hone.alarm.trans halarm)
      (fun g hg => ⟨by rw [hone.blocks]; exact hlt g hg, (hall g (List.mem_cons_of_mem _ hg)).2⟩) hord
    refine ⟨b, hrest.passed.trans hone.passed, hrest.alarm.trans hone.alarm, ?_, hrest.blocks, hrest.sec.trans hone.sec,
      hrest.fw.trans hone.fw⟩
    rw [List.foldl_cons, hrest.startFails, hone.startFails, List.length_cons]
    omega

/-! ### What keys and seeds made at a boot leave (R348, R349) -/

/-- `t` has the random source and the firmware of `s`. -/
def SameRngFw (s t : State) : Prop := t.rng = s.rng ∧ t.fw = s.fw

theorem SameRngFw.refl (s : State) : SameRngFw s s := ⟨rfl, rfl⟩

theorem SameRngFw.trans {u : State} (h : SameRngFw s t) (k : SameRngFw t u) : SameRngFw s u :=
  ⟨k.1.trans h.1, k.2.trans h.2⟩

theorem Ends.sameRngFw (h : Ends s t) : SameRngFw s t := ⟨h.rng, h.fw⟩

theorem sameRngFw_foldl {β : Type} (f : State → β → State) (h : ∀ a b, SameRngFw a (f a b)) (l : List β) (s : State) :
    SameRngFw s (l.foldl f s) := by
  induction l generalizing s with
  | nil => exact .refl s
  | cons b l ih => exact (h s b).trans (ih _)

theorem sameRngFw_condBytes (s : State) (n : Nat) : SameRngFw s (s.condBytes n).2 := by
  rw [condBytes_state]
  exact ⟨rfl, rfl⟩

theorem sameRngFw_newKey (s : State) (slot n engine origin life : Nat) (part : Option Nat) :
    SameRngFw s (s.newKey slot n engine origin life part) :=
  (sameRngFw_condBytes s n).trans ⟨rfl, rfl⟩

theorem sameRngFw_newMemKeys (s : State) (p : Nat) : SameRngFw s (s.newMemKeys p) :=
  (sameRngFw_newKey ..).trans (sameRngFw_newKey ..)

theorem sameRngFw_deriveData (s : State) (p : Nat) (k : KeySlot) : SameRngFw s (s.deriveData p k) := by
  unfold State.deriveData
  split
  · exact .refl s
  · exact ⟨rfl, rfl⟩

theorem sameRngFw_newMedia (s : State) (p : Nat) : SameRngFw s (s.newMedia p) := by
  have hmade : SameRngFw s (if (s.cfg p).tierC.isEmpty ∨ (tfind s.flc.media p).isSome then s
      else (s.condBytes 32).2.setFlc { (s.condBytes 32).2.flc with
        media := tset p (keyWrap3394 ((s.condBytes 32).2.slot 4).key (s.condBytes 32).1) (s.condBytes 32).2.flc.media }) := by
    split
    · exact .refl s
    · exact (sameRngFw_condBytes s 32).trans ⟨rfl, rfl⟩
  unfold State.newMedia
  dsimp only
  split
  · exact hmade.trans (sameRngFw_deriveData ..)
  · exact hmade

theorem sameRngFw_drbgNew (s : State) (pers : Bytes) : SameRngFw s (s.drbgNew pers).2 :=
  (sameRngFw_condBytes s 48).trans (sameRngFw_condBytes _ 16)

theorem sameRngFw_newDrbg (s : State) (p : Nat) : SameRngFw s (s.newDrbg p) :=
  (sameRngFw_drbgNew s (s.drbgPers p)).trans ⟨rfl, rfl⟩

theorem sameRngFw_newMaskDrbg (s : State) : SameRngFw s s.newMaskDrbg :=
  SameRngFw.trans (t := (s.freeBytes 1).2) ⟨rfl, rfl⟩
    ((sameRngFw_drbgNew _ ((s.freeBytes 1).1 ++ leBytes 4 s.sec.epoch ++ time10 s.sec.bootAt)).trans ⟨rfl, rfl⟩)

theorem sameRngFw_makeKeys (s : State) : SameRngFw s s.makeKeys := by
  unfold State.makeKeys
  split
  · exact (((sameRngFw_newKey ..).trans (sameRngFw_foldl _
      (fun a p => (sameRngFw_newMemKeys a p).trans (sameRngFw_newMedia _ p)) _ _)).trans (sameRngFw_newMaskDrbg _)).trans
      (sameRngFw_foldl _ sameRngFw_newDrbg _ _)
  · exact .refl s

theorem sameRngFw_blankAll (s : State) : SameRngFw s s.blankAll := ⟨rfl, rfl⟩

theorem sameRngFw_switchCommit (s : State) : SameRngFw s s.switchCommit := ⟨rfl, rfl⟩

theorem sameRngFw_eraseAll (s : State) : SameRngFw s s.eraseAll :=
  (ends_eraseTierC s).sameRngFw.trans (sameRngFw_blankAll _)

/-- Out of FAULT_SECURE: the latch is clear, tier C ready or write-protected. -/
def State.latchCleared (e : State) : State :=
  { e with sec := { e.sec with latch := false, held := false }, flc := { e.flc with st := if e.flc.wp then 3 else 2 } }

theorem sameRngFw_latchCleared (s : State) : SameRngFw s s.latchCleared := ⟨rfl, rfl⟩

theorem sameRngFw_bootSecure (s : State) : SameRngFw s s.bootSecure := by
  have hleft : SameRngFw s s.eraseAll.switchCommit.latchCleared :=
    ((sameRngFw_eraseAll s).trans (sameRngFw_switchCommit _)).trans (sameRngFw_latchCleared _)
  unfold State.bootSecure
  split
  · dsimp only
    split
    · exact hleft.trans (sameRngFw_makeKeys _)
    · exact sameRngFw_makeKeys s
  · exact .refl s

/-! ### The cores start (R360, R392) -/

theorem startCores_rng (s : State) : s.startCores.rng = s.rng := by
  unfold State.startCores
  split <;> rfl

theorem startCores_sec (s : State) : s.startCores.sec = s.sec := by
  unfold State.startCores
  split <;> rfl

theorem startCores_rounds (s : State) : s.startCores.rounds = s.rounds := by
  unfold State.startCores
  split <;> rfl

theorem startCores_load (h : s.fw.load = 3) (hended : s.rng.ended = true) : s.startCores.fw.load = 4 := by
  unfold State.startCores
  rw [if_pos ⟨h, hended⟩]
  rfl

/-! ### RNG_STARTUP_TEST_DONE -/

/-- Every block of the start-up test is counted. -/
def State.startTested (s : State) (fails : List (Nat × Nat × Nat)) : State :=
  (fails.foldl State.startFail s).setRng { (fails.foldl State.startFail s).rng with
    blocks := max (fails.foldl State.startFail s).rng.blocks startBlocks }

/-- The start-up test passed. -/
def State.startPassed (s : State) : State := s.setRng { s.rng with passed := true }

/-- A latch that this boot found set keeps FAULT_SECURE, with the random source for its cause (R3, R346). -/
def State.heldCause (s : State) : State :=
  if s.sec.lifecycle = 2 ∧ s.sec.held then s.setSec { s.sec with cause := 1 } else s

theorem exec_rngStartupTestDone (fails : List (Nat × Nat × Nat)) (hrun : s.isRun = true) (hended : s.rng.ended = false) :
    exec (.rngStartupTestDone fails) s = .next (if (s.startTested fails).rng.startFails ≤ 2 then
      (s.startTested fails).startPassed.bootSecure.startCores
      else ((s.startTested fails).rngAlarm 2).heldCause.startCores) :=
  congrArg Host.Outcome.next (if_neg (by simp [hrun, hended]))

theorem heldCause_rng (s : State) : s.heldCause.rng = s.rng := by
  unfold State.heldCause
  split <;> rfl

theorem heldCause_fw (s : State) : s.heldCause.fw = s.fw := by
  unfold State.heldCause
  split <;> rfl

theorem heldCause_faultSecure (h : s.sec.latch = true ∧ s.sec.cause = 1 ∧ s.secretsGone) :
    s.heldCause.sec.latch = true ∧ s.heldCause.sec.cause = 1 ∧ s.heldCause.secretsGone := by
  unfold State.heldCause
  split
  · exact ⟨h.1, rfl, h.2.2⟩
  · exact h

theorem secretsGone_of_eq (hsec : t.sec = s.sec) (hrounds : t.rounds = s.rounds) (h : s.secretsGone) : t.secretsGone := by
  obtain ⟨hslots, hide, hsess, hround⟩ := h
  exact ⟨by rw [hsec, hslots], by rw [hsec, hide], by rw [hsec, hsess], fun r hr => by
    rw [State.round, hrounds]; exact hround r hr⟩

/-- The start-up test passes: keys are made, and the cores start where the load parts wait for it. -/
theorem startPassed_starts (s : State) (halarm : s.rng.alarm = false) :
    s.startPassed.bootSecure.startCores.rng.passed = true ∧ s.startPassed.bootSecure.startCores.rng.alarm = false
      ∧ (s.fw.load = 3 → s.startPassed.bootSecure.startCores.fw.load = 4) := by
  obtain ⟨hrng, hfw⟩ := sameRngFw_bootSecure s.startPassed
  rw [startCores_rng, hrng]
  refine ⟨rfl, halarm, fun hload => startCores_load ?_ ?_⟩
  · rw [hfw]; exact hload
  · rw [hrng]; rfl

/-- The start-up test fails: the alarm, FAULT_SECURE from DEPLOYED, and the cores start. -/
theorem startAlarm_starts (s : State) (hpassed : s.rng.passed = false) :
    (s.rngAlarm 2).heldCause.startCores.rng.alarm = true ∧ (s.rngAlarm 2).heldCause.startCores.rng.passed = false
      ∧ (s.fw.load = 3 → (s.rngAlarm 2).heldCause.startCores.fw.load = 4)
      ∧ (s.sec.lifecycle = 1 → (s.rngAlarm 2).heldCause.startCores.sec.latch = true
        ∧ (s.rngAlarm 2).heldCause.startCores.sec.cause = 1 ∧ (s.rngAlarm 2).heldCause.startCores.secretsGone) := by
  have hrng : (s.rngAlarm 2).heldCause.rng = { s.rng with alarm := true, stopped := true } := by
    rw [heldCause_rng, rngAlarm_rng]
  refine ⟨by rw [startCores_rng, hrng], by rw [startCores_rng, hrng]; exact hpassed, fun hload => startCores_load ?_ ?_,
    fun hlife => ?_⟩
  · rw [heldCause_fw, rngAlarm_fw, hload]
  · rw [hrng]
    exact Bool.or_true _
  · obtain ⟨hlatch, hcause, hgone⟩ := heldCause_faultSecure (rngAlarm_faultSecure 2 hlife)
    rw [startCores_sec]
    exact ⟨hlatch, hcause, secretsGone_of_eq (startCores_sec _) (startCores_rounds _) hgone⟩

theorem rngStartupTestDone_ends {fails : List (Nat × Nat × Nat)} (hrun : s.isRun = true) (hpassed : s.rng.passed = false)
    (halarm : s.rng.alarm = false)
    (hall : ∀ f ∈ fails, s.rng.blocks < f.1 ∧ f.1 ≤ 65536 ∧ f.2.1 < 64 ∧ (f.2.2 = 1 ∨ f.2.2 = 2))
    (hord : fails.Pairwise (fun a b => a.1 < b.1)) :
    (s.rng.startFails + fails.length ≤ 2 → ∃ t, exec (.rngStartupTestDone fails) s = .next t ∧ t.rng.passed = true
      ∧ t.rng.alarm = false ∧ (s.fw.load = 3 → t.fw.load = 4))
    ∧ (2 < s.rng.startFails + fails.length → ∃ t, exec (.rngStartupTestDone fails) s = .next t ∧ t.rng.alarm = true
      ∧ t.rng.passed = false ∧ (s.fw.load = 3 → t.fw.load = 4)
      ∧ (s.sec.lifecycle = 1 → t.sec.latch = true ∧ t.sec.cause = 1 ∧ t.secretsGone)) := by
  obtain ⟨b, hfold⟩ := startFails_foldl fails s hpassed halarm hall hord
  have hstart : (s.startTested fails).rng.startFails = s.rng.startFails + fails.length := hfold.startFails
  have hsec : (s.startTested fails).sec = s.sec := hfold.sec
  have hfw : (s.startTested fails).fw = s.fw := hfold.fw
  rw [exec_rngStartupTestDone fails hrun (ended_eq_false hpassed halarm), hstart]
  refine ⟨fun hfew => ?_, fun hmany => ?_⟩
  · rw [if_pos hfew, ← hfw]
    exact ⟨_, rfl, startPassed_starts (s.startTested fails) (hfold.alarm.trans halarm)⟩
  · rw [if_neg (Nat.not_le.2 hmany), ← hfw, ← hsec]
    exact ⟨_, rfl, startAlarm_starts (s.startTested fails) (hfold.passed.trans hpassed)⟩

/-! ## RNG_RAW and RNG_CTL (R351) -/

theorem exec_rngRawRead_empty (hrun : s.isRun = true) (h : s.rng.fifo = []) : exec .rngRawRead s =
    .next ({ s with rng := { s.rng with empty := true } }.put (.readData 0 0x5E0008 32 0)) := by
  change execRngRawRead s = _
  rw [execRngRawRead, if_neg (by simp [hrun]), h]
  rfl

theorem exec_rngRawRead_word {w : Nat} {ws : List Nat} (hrun : s.isRun = true) (h : s.rng.fifo = w :: ws) :
    exec .rngRawRead s =
      .next ({ s with rng := { s.rng with fifo := ws } }.put (.readData 0 0x5E0008 32 (2 ^ 31 + w))) := by
  change execRngRawRead s = _
  rw [execRngRawRead, if_neg (by simp [hrun]), h]
  rfl

theorem exec_rngRawWrite_injects (v : Word) (hrun : s.isRun = true) (hinj : s.rng.inject = true) :
    exec (.rngRawWrite v) s = .next { s with rng := { s.rng with injected := s.rng.injected ++ leBytes 2 v.toNat } } :=
  congrArg Host.Outcome.next (if_pos ⟨hrun, hinj⟩)

theorem exec_rngRawWrite_ignored (v : Word) (hinj : s.rng.inject = false) : exec (.rngRawWrite v) s = .next s :=
  congrArg Host.Outcome.next (if_neg (fun h => Bool.noConfusion (h.2.symm.trans hinj)))

theorem lifecycle_eq_zero_iff (x : Sec) : x.lifecycle = 0 ↔ x.fused = .factory := by
  unfold Sec.lifecycle
  cases x.fused with
  | factory => simp
  | deployed => cases x.latch <;> simp
  | retired => simp

/-- RNG_CTL as a write of `v` leaves it: INJECT in FACTORY alone (R351). -/
def State.rngCtl (s : State) (v : Word) : State :=
  s.setRng { s.rng with
    tap := bit v.toNat 7, tapSrc := v.toNat % 64, inject := bit v.toNat 6 && decide (s.sec.lifecycle = 0)
    injected := if bit v.toNat 6 ∧ s.sec.lifecycle = 0 then s.rng.injected else [] }

theorem exec_rngCtlWrite (v : Word) (hrun : s.isRun = true) : exec (.rngCtlWrite v) s =
    .next (if bit v.toNat 6 ∧ ¬ s.sec.lifecycle = 0 then (s.rngCtl v).raise srcThimble evSecInjectDenied 0xFF []
      else s.rngCtl v) :=
  congrArg Host.Outcome.next (if_neg (by simp [hrun]))

theorem rngCtlWrite_sets (v : Word) (hrun : s.isRun = true) : ∃ t, exec (.rngCtlWrite v) s = .next t
    ∧ t.rng.tap = bit v.toNat 7 ∧ t.rng.tapSrc = v.toNat % 64
    ∧ (t.rng.inject = true ↔ bit v.toNat 6 = true ∧ s.sec.fused = .factory)
    ∧ (bit v.toNat 6 = true → s.sec.fused ≠ .factory →
      tget 0 t.evSeq srcThimble = (tget 0 s.evSeq srcThimble + 1) % 2 ^ 32)
    ∧ OnlyReports { s with rng := t.rng } t := by
  have hinject : (s.rngCtl v).rng.inject = true ↔ bit v.toNat 6 = true ∧ s.sec.fused = .factory := by
    rw [← lifecycle_eq_zero_iff]
    exact (Bool.and_eq_true _ _).to_iff.trans (and_congr_right' decide_eq_true_iff)
  rw [exec_rngCtlWrite v hrun]
  by_cases hdenied : bit v.toNat 6 = true ∧ ¬ s.sec.lifecycle = 0
  · have hrep := onlyReports_raise (s.rngCtl v) srcThimble evSecInjectDenied 0xFF []
    rw [if_pos hdenied]
    refine ⟨_, rfl, rfl, rfl, hinject, fun _ _ => ?_, hrep.of_setRng⟩
    rw [State.raise_evSeq _ _ _ _ _ _ (by decide), if_pos rfl]
    rfl
  · rw [if_neg hdenied]
    refine ⟨_, rfl, rfl, rfl, hinject, fun hbit hfused => absurd ⟨hbit, ?_⟩ hdenied, OnlyReports.refl _⟩
    rwa [lifecycle_eq_zero_iff]

/-- Settles O54: the Thimble's upkeep, then each command of the random source by its own lemma. -/
theorem thimbleUpkeepAndRandomSource : Obligations.ThimbleUpkeepAndRandomSource := by
  refine ⟨⟨fun s id o key hw hz hz' hreach => ⟨mgmtCred_sets hw hz hz' hreach, mgmtCred_refuses hw hz hz' hreach⟩,
    fun s => ⟨fun d hup hd => keyMaskRefresh_masks hup hd, exec_keyMaskRefresh_of_none, fun h => ?_, fun h => ?_⟩⟩,
    fun s src bits hrun hsrc => ⟨fun hinj => ⟨rngBlockTest_passes bits hrun hsrc hinj, rngBlockTest_fails bits hrun hsrc hinj⟩,
      fun hinj htap => ⟨exec_rngBlockTest_short bits hrun hsrc hinj htap, rngBlockTest_injected bits hrun hsrc hinj htap⟩⟩,
    fun s src bits h => exec_rngBlockTest_of_stopped bits h, blockTest_of_run, fun s src hrun hsrc hstopped => ?_,
    fun s fails hrun hpassed halarm hall hord => rngStartupTestDone_ends hrun hpassed halarm hall hord,
    fun s hrun => ⟨exec_rngRawRead_empty hrun, fun w ws => exec_rngRawRead_word hrun⟩,
    fun s v hrun => ⟨exec_rngRawWrite_injects v hrun, exec_rngRawWrite_ignored v, rngCtlWrite_sets v hrun⟩⟩
  · rw [exec_fusingToDeployed, if_pos h]
    rfl
  · rw [exec_fusingToDeployed, if_neg h]
  · exact congrArg Host.Outcome.next (if_pos ⟨hrun, hsrc, by simpa using hstopped⟩)

end Sys2Proof.Machine
end

section
/-! Thermal control and the management link (R3, R386 to R391). -/

namespace Sys2Proof.Machine

variable {s t : State}

/-! ## Reports over a replaced power core, rails off -/

theorem OnlyReports.pwr (h : OnlyReports s t) : t.pwr = s.pwr := h.ends.pwr

theorem OnlyReports.of_setPwr {x : Pwr} (h : OnlyReports (s.setPwr x) t) : OnlyReports { s with pwr := t.pwr } t := by
  rw [h.pwr]
  exact h

theorem applyLayout_pwr (s : State) (b : Bytes) : (s.applyLayout b).pwr = s.pwr := by
  unfold State.applyLayout
  exact foldl_keeps (fun a : State => a.pwr) (fun s p => s.setPart p { s.part p with cfg := layCfg b p }) (fun _ _ => rfl)
    (List.range 32) { s with layout := b }

theorem railsOff_pwr (s : State) (ph : Phase) : (s.railsOff ph).pwr =
    { s.pwr with phase := ph, mainOk := false, dump := none, tripped := s.pwr.tripHold } := by
  have hclear : s.clearMain.pwr = s.pwr := applyLayout_pwr _ _
  unfold State.railsOff
  dsimp only
  rw [hclear]

/-- HOLDUP is entered with a dump of the bank's or of main power (R240, R378). -/
theorem enterHoldup_pwr (s : State) (fromBank : Bool) : (s.enterHoldup fromBank).pwr =
    { s.pwr with
      phase := .holdup, dump := some ⟨s.now, s.flc.energy, fromBank⟩, dwell := some s.now, tripped := s.pwr.tripHold } := rfl

/-! ## Throttling (R386, R387) -/

/-- The throttled time settles with the ceiling: no more of the power core changes than the time it runs from. -/
theorem settleThrottle_onlyReports (s : State) :
    ∃ from_, OnlyReports (s.setPwr { s.pwr with thrFrom := from_ }) s.settleThrottle := by
  unfold State.settleThrottle
  split
  · split
    · exact ⟨some s.now, OnlyReports.refl _⟩
    · exact ⟨s.pwr.thrFrom, OnlyReports.refl s⟩
  · split
    · exact ⟨s.pwr.thrFrom, OnlyReports.refl s⟩
    · exact ⟨none, onlyReports_count ..⟩

/-- The ceiling moves to `c`, with the alert at `a`, and the throttled time settles. -/
theorem settleThrottle_ceiling (p : Pwr) : ∃ t, (s.setPwr p).settleThrottle = t ∧ t.pwr.ceiling = p.ceiling
    ∧ t.pwr.alert = p.alert ∧ t.pwr.clock = p.clock ∧ OnlyReports { s with pwr := t.pwr } t := by
  obtain ⟨from_, hrep⟩ := settleThrottle_onlyReports (s.setPwr p)
  have hpwr : (s.setPwr p).settleThrottle.pwr = { p with thrFrom := from_ } := hrep.pwr
  exact ⟨_, rfl, by rw [hpwr], by rw [hpwr], by rw [hpwr], OnlyReports.of_setPwr (s := s) hrep⟩

theorem exec_thermalAlert (s : State) (j i : Nat) : exec (.thermalAlert j i) s =
    .next (if s.rails ∧ !s.pwr.alert ∧ (100 ≤ j ∨ 45 ≤ i) then
      ((s.sense j i).setPwr { (s.sense j i).pwr with alert := true }).raise srcPower evPwrThrottle 0xFF
        (leBytes 1 j ++ leBytes 1 i)
      else s.sense j i) := rfl

theorem thermalAlert_raises {j i : Nat} (hrails : s.rails = true) (halert : s.pwr.alert = false) (hhot : 100 ≤ j ∨ 45 ≤ i) :
    ∃ t, exec (.thermalAlert j i) s = .next t ∧ t.pwr = { s.pwr with alert := true, junction := j, inlet := i }
      ∧ tget 0 t.evSeq srcPower = (tget 0 s.evSeq srcPower + 1) % 2 ^ 32 ∧ OnlyReports { s with pwr := t.pwr } t := by
  have hrep := onlyReports_raise (s.setPwr { s.pwr with alert := true, junction := j, inlet := i }) srcPower evPwrThrottle
    0xFF (leBytes 1 j ++ leBytes 1 i)
  rw [exec_thermalAlert, if_pos ⟨hrails, by rw [halert]; rfl, hhot⟩]
  refine ⟨_, rfl, rfl, ?_, hrep.of_setPwr⟩
  rw [State.raise_evSeq _ _ _ _ _ _ (by decide), if_pos rfl]
  rfl

theorem thermalAlert_senses {j i : Nat} (h : s.rails = false ∨ s.pwr.alert = true ∨ (j < 100 ∧ i < 45)) :
    exec (.thermalAlert j i) s = .next (s.sense j i) := by
  have hnot : ¬ (s.rails = true ∧ (!s.pwr.alert) = true ∧ (100 ≤ j ∨ 45 ≤ i)) := by
    rintro ⟨hrails, halert, hhot⟩
    rcases h with h | h | h
    · exact Bool.noConfusion (hrails.symm.trans h)
    · simp [h] at halert
    · omega
  rw [exec_thermalAlert, if_neg hnot]

theorem exec_throttleStepUp (s : State) (j i : Nat) : exec (.throttleStepUp j i) s =
    .next (if s.rails ∧ j < 95 ∧ i < 43 then
      (s.setPwr { s.pwr with junction := j, inlet := i, alert := false, ceiling := min 1850 (s.pwr.ceiling + 25) }).settleThrottle
      else s.sense j i) := rfl

theorem throttleStepUp_raises {j i : Nat} (hrails : s.rails = true) (hj : j < 95) (hi : i < 43) :
    ∃ t, exec (.throttleStepUp j i) s = .next t ∧ t.pwr.alert = false
      ∧ t.pwr.ceiling = min 1850 (s.pwr.ceiling + 25) ∧ t.pwr.clock = s.pwr.clock ∧ OnlyReports { s with pwr := t.pwr } t := by
  obtain ⟨t, ht, hceiling, halert, hclock, hrep⟩ := settleThrottle_ceiling (s := s)
    { s.pwr with junction := j, inlet := i, alert := false, ceiling := min 1850 (s.pwr.ceiling + 25) }
  rw [exec_throttleStepUp, if_pos ⟨hrails, hj, hi⟩, ht]
  exact ⟨t, rfl, halert, hceiling, hclock, hrep⟩

theorem throttleStepUp_senses {j i : Nat} (h : s.rails = false ∨ 95 ≤ j ∨ 43 ≤ i) :
    exec (.throttleStepUp j i) s = .next (s.sense j i) := by
  have hnot : ¬ (s.rails = true ∧ j < 95 ∧ i < 43) := by
    rintro ⟨hrails, hj, hi⟩
    rcases h with h | h | h
    · exact Bool.noConfusion (hrails.symm.trans h)
    · omega
    · omega
  rw [exec_throttleStepUp, if_neg hnot]

theorem exec_throttleStepDown (s : State) : exec .throttleStepDown s =
    .next (if s.rails ∧ s.pwr.alert ∧ (100 ≤ s.pwr.junction ∨ 45 ≤ s.pwr.inlet) then
      (s.setPwr { s.pwr with ceiling := max 925 (s.pwr.ceiling - 25) }).settleThrottle
      else s) := rfl

theorem throttleStepDown_lowers (hrails : s.rails = true) (halert : s.pwr.alert = true)
    (hhot : 100 ≤ s.pwr.junction ∨ 45 ≤ s.pwr.inlet) : ∃ t, exec .throttleStepDown s = .next t
      ∧ t.pwr.ceiling = max 925 (s.pwr.ceiling - 25) ∧ t.pwr.clock = s.pwr.clock ∧ OnlyReports { s with pwr := t.pwr } t := by
  obtain ⟨t, ht, hceiling, -, hclock, hrep⟩ := settleThrottle_ceiling (s := s)
    { s.pwr with ceiling := max 925 (s.pwr.ceiling - 25) }
  rw [exec_throttleStepDown, if_pos ⟨hrails, halert, hhot⟩, ht]
  exact ⟨t, rfl, hceiling, hclock, hrep⟩

theorem throttleStepDown_ends (h : s.rails = false ∨ s.pwr.alert = false ∨ (s.pwr.junction < 100 ∧ s.pwr.inlet < 45)) :
    exec .throttleStepDown s = .next s := by
  have hnot : ¬ (s.rails = true ∧ s.pwr.alert = true ∧ (100 ≤ s.pwr.junction ∨ 45 ≤ s.pwr.inlet)) := by
    rintro ⟨hrails, halert, hhot⟩
    rcases h with h | h | h
    · exact Bool.noConfusion (hrails.symm.trans h)
    · exact Bool.noConfusion (halert.symm.trans h)
    · omega
  rw [exec_throttleStepDown, if_neg hnot]

/-! ## The trip (R388) -/

/-- The sensors read anew, and a trip that holds. -/
def State.tripped (s : State) (j i : Nat) : State :=
  s.setPwr { s.pwr with junction := j, inlet := i, tripped := true, tripHold := true }

theorem thermalTrip_of_run {j i : Nat} (hhot : 110 ≤ j ∨ 60 ≤ i) (hrun : s.pwr.phase = .run) :
    exec (.thermalTrip j i) s = .next ((s.tripped j i).enterHoldup false) := by
  have hphase : (s.sense j i).pwr.phase = .run := hrun
  change execThermalTrip j i s = _
  rw [execThermalTrip]
  dsimp only
  rw [if_pos hhot, hphase]
  rfl

theorem thermalTrip_of_start {j i : Nat} (hhot : 110 ≤ j ∨ 60 ≤ i) (h : s.pwr.phase = .auxOnly ∨ s.pwr.phase = .sequence) :
    exec (.thermalTrip j i) s = .next ((s.tripped j i).railsOff .offHeld) := by
  have hphase : (s.sense j i).pwr.phase = .auxOnly ∨ (s.sense j i).pwr.phase = .sequence := h
  change execThermalTrip j i s = _
  rw [execThermalTrip]
  dsimp only
  rw [if_pos hhot]
  rcases hphase with hphase | hphase <;> rw [hphase] <;> rfl

theorem thermalTrip_senses {j i : Nat} (hj : j < 110) (hi : i < 60) : exec (.thermalTrip j i) s = .next (s.sense j i) :=
  congrArg Host.Outcome.next (if_neg (by omega))

/-- The trip while the main rails are on: HOLDUP from main power. -/
theorem thermalTrip_holdup {j i : Nat} (hhot : 110 ≤ j ∨ 60 ≤ i) (hrun : s.pwr.phase = .run) :
    ∃ t d, exec (.thermalTrip j i) s = .next t ∧ t.pwr.phase = .holdup ∧ t.pwr.tripped = true ∧ t.pwr.tripHold = true
      ∧ t.pwr.dump = some d ∧ d.fromBank = false :=
  ⟨_, _, thermalTrip_of_run hhot hrun, rfl, rfl, rfl, rfl, rfl⟩

/-- The trip before: off. -/
theorem thermalTrip_off {j i : Nat} (hhot : 110 ≤ j ∨ 60 ≤ i) (h : s.pwr.phase = .auxOnly ∨ s.pwr.phase = .sequence) :
    ∃ t, exec (.thermalTrip j i) s = .next t ∧ t.pwr.phase = .offHeld ∧ t.pwr.tripped = true ∧ t.pwr.tripHold = true := by
  have hpwr := railsOff_pwr (s.tripped j i) .offHeld
  refine ⟨_, thermalTrip_of_start hhot h, ?_, ?_, ?_⟩
  · rw [hpwr]
  · rw [hpwr]; rfl
  · rw [hpwr]; rfl

/-- MOD_RESET_N released. -/
def State.resetHigh (s : State) : State := s.setPwr { s.pwr with rstLow := none, reset := 0 }

theorem exec_modResetNRelease_offHeld (hlow : s.pwr.rstLow.isSome = true) (hoff : s.pwr.phase = .offHeld)
    (hv54 : s.pwr.v54 = true) : exec .modResetNRelease s = .next (s.resetHigh.tryStart 1) := by
  refine congrArg Host.Outcome.next ((if_pos hlow).trans ?_)
  rw [State.resetRelease, hoff]
  exact if_pos hv54

theorem tryStart_of_hot (code : Nat) (hhold : s.pwr.tripHold = true) (hcool : s.cool = false) : s.tryStart code = s := by
  rw [State.tryStart, if_pos hhold, if_neg (by simp [hcool])]

theorem tryStart_of_cool (code : Nat) (hhold : s.pwr.tripHold = true) (hcool : s.cool = true) :
    s.tryStart code = s.startEvent 3 := by
  rw [State.tryStart, if_pos hhold, if_pos hcool]

/-- A start event: AUX_ONLY with its code, no trip held; TRIPPED stays. -/
theorem startEvent_pwr (s : State) (code : Nat) : (s.startEvent code).pwr.phase = .auxOnly
    ∧ (s.startEvent code).pwr.tripHold = false ∧ (s.startEvent code).pwr.tripped = s.pwr.tripped
    ∧ (s.startEvent code).pwr.lastStart = code := by
  unfold State.startEvent
  dsimp only
  split
  · exact ⟨rfl, rfl, rfl, rfl⟩
  · exact ⟨rfl, rfl, rfl, rfl⟩

/-- A trip that holds keeps the module off while it is hot; the release of the reset clears it once cool (R388). -/
theorem modResetNRelease_tripped (hlow : s.pwr.rstLow.isSome = true) (hoff : s.pwr.phase = .offHeld)
    (hhold : s.pwr.tripHold = true) (hv54 : s.pwr.v54 = true) :
    (s.cool = false → ∃ t, exec .modResetNRelease s = .next t ∧ t.pwr.phase = .offHeld ∧ t.pwr.tripHold = true)
    ∧ (s.cool = true → ∃ t, exec .modResetNRelease s = .next t ∧ t.pwr.phase = .auxOnly ∧ t.pwr.tripHold = false
      ∧ t.pwr.tripped = s.pwr.tripped ∧ t.pwr.lastStart = 3) := by
  have hhold' : s.resetHigh.pwr.tripHold = true := hhold
  rw [exec_modResetNRelease_offHeld hlow hoff hv54]
  refine ⟨fun hcool => ?_, fun hcool => ?_⟩
  · rw [tryStart_of_hot 1 hhold' hcool]
    exact ⟨_, rfl, hoff, hhold⟩
  · rw [tryStart_of_cool 1 hhold' hcool]
    exact ⟨_, rfl, startEvent_pwr s.resetHigh 3⟩

/-! ## Fields of a slice -/

theorem getD_zeros (n i : Nat) : (zeros n).getD i 0 = 0 := by
  rw [zeros, List.getD_eq_getElem?_getD, List.getElem?_replicate]
  split
  · rfl
  · rfl

theorem getD_of_length_le {bs : Bytes} {i : Nat} (h : bs.length ≤ i) : bs.getD i 0 = 0 := by
  rw [List.getD_eq_getElem?_getD, List.getElem?_eq_none h, Option.getD_none]

/-- A byte of a slice is the byte at its offset; beyond the end of either it reads 0. -/
theorem getD_slice (bs : Bytes) (off n i : Nat) : (slice bs off n).getD i 0 = if i < n then bs.getD (off + i) 0 else 0 := by
  by_cases hi : i < n
  · rw [if_pos hi, slice, List.getD_eq_getElem?_getD]
    by_cases hin : off + i < bs.length
    · have hlt : i < ((bs.drop off).take n).length := by rw [List.length_take, List.length_drop]; omega
      rw [List.getElem?_append_left hlt, List.getElem?_take_of_lt hi, List.getElem?_drop, List.getD_eq_getElem?_getD]
    · have hle : ((bs.drop off).take n).length ≤ i := by rw [List.length_take, List.length_drop]; omega
      rw [List.getElem?_append_right hle, ← List.getD_eq_getElem?_getD, getD_zeros,
        getD_of_length_le (Nat.le_of_not_lt hin)]
  · rw [if_neg hi, getD_of_length_le (by rw [length_slice]; omega)]

theorem slice_slice {off n m : Nat} (bs : Bytes) (h : off + n ≤ m) : slice (slice bs 0 m) off n = slice bs off n := by
  have hbyte : ∀ i, (slice (slice bs 0 m) off n).getD i 0 = (slice bs off n).getD i 0 := fun i => by
    rw [getD_slice _ off, getD_slice bs off]
    by_cases hi : i < n
    · rw [if_pos hi, if_pos hi, getD_slice, if_pos (by omega), Nat.zero_add]
    · rw [if_neg hi, if_neg hi]
  refine List.ext_getElem (by rw [length_slice, length_slice]) fun i h₁ h₂ => ?_
  rw [← getD_of_lt (d := 0) h₁, ← getD_of_lt (d := 0) h₂, hbyte]

theorem le_slice {off n m : Nat} (bs : Bytes) (h : off + n ≤ m) : le (slice bs 0 m) off n = le bs off n :=
  congrArg leNat (slice_slice bs h)

theorem byteAt_slice {off m : Nat} (bs : Bytes) (h : off < m) : byteAt (slice bs 0 m) off = byteAt bs off := by
  rw [byteAt, getD_slice, if_pos h, Nat.zero_add, byteAt]

/-! ## The management link (R389 to R391) -/

theorem mgmtHealthRead_serves {off v : Nat} (haux : s.pwr.auxOn = true) (hv : s.health off = some v) :
    exec (.mgmtHealthRead off) s = .next (s.put (.mgmt stOk (leBytes 4 v))) := by
  change execMgmtHealthRead off s = _
  rw [execMgmtHealthRead, haux, hv]
  rfl

theorem mgmtHealthRead_refuses {off : Nat} (haux : s.pwr.auxOn = true) (hnone : s.health off = none) :
    exec (.mgmtHealthRead off) s = .next (s.put (.mgmt mgmtRefused [])) := by
  change execMgmtHealthRead off s = _
  rw [execMgmtHealthRead, haux, hnone]
  rfl

/-- A SEQ that the floor has reached lets no envelope in. -/
theorem envelopeOk_of_replay {env : Envelope} (h : env.seq.toNat ≤ s.sec.seqFloor) : s.envelopeOk env = false := by
  unfold State.envelopeOk
  split
  · rfl
  · rw [decide_eq_false (Nat.not_lt.2 h), Bool.false_and]

theorem envelopeOk_of_no_key {env : Envelope} (h : s.sec.opKey = none) : s.envelopeOk env = false := by
  rw [State.envelopeOk, h]

theorem mgmtPermits_of_keys (d : Bytes) (h : s.sec.lifecycle < 2) : s.mgmtPermits d = true := by
  unfold State.mgmtPermits
  split
  · omega
  · omega
  · rfl

theorem mgmtPermits_of_retired (d : Bytes) (h : s.sec.lifecycle = 3) : s.mgmtPermits d = false := by
  rw [State.mgmtPermits, h]
  rfl

/-- In FAULT_SECURE the link permits the reset action and dump reads. -/
theorem mgmtPermits_of_faultSecure (d : Bytes) (h : s.sec.lifecycle = 2) :
    s.mgmtPermits d = true ↔ byteAt d 0 = 0xF0 ∨ byteAt d 0 = 0x95 ∧ byteAt d 8 = 0 := by
  rw [State.mgmtPermits, h]
  simp

/-- Dump reads are permitted until the module is RETIRED. -/
theorem mgmtPermits_dumpRead {d : Bytes} (h : s.sec.lifecycle ≠ 3) (hop : byteAt d 0 = 0x95) (hread : byteAt d 8 = 0) :
    s.mgmtPermits d = true := by
  unfold State.mgmtPermits
  split
  · rw [hop, hread]; rfl
  · contradiction
  · rfl

/-- What leaves the link with nothing to permit. -/
theorem mgmtPermits_of_not {d : Bytes}
    (h : s.sec.lifecycle = 3 ∨ (s.sec.lifecycle = 2 ∧ byteAt d 0 ≠ 0xF0 ∧ ¬ (byteAt d 0 = 0x95 ∧ byteAt d 8 = 0))) :
    s.mgmtPermits d = false := by
  rcases h with h | ⟨h, hreset, hread⟩
  · exact mgmtPermits_of_retired d h
  · rw [← Bool.not_eq_true, mgmtPermits_of_faultSecure d h]
    exact fun hp => hp.elim hreset hread

/-- The envelope is accepted: its SEQ is the floor. -/
def State.seqAccepted (s : State) (env : Envelope) : State := s.setSec { s.sec with seqFloor := env.seq.toNat }

theorem mgmtEnvelopedRequest_accepts {env : Envelope} (hup : s.thimbleUp = true) (hperm : s.mgmtPermits env.request = true)
    (hok : s.envelopeOk env = true) :
    exec (.mgmtEnvelopedRequest env) s = .next ((s.seqAccepted env).mgmtAction env.request) := by
  change execMgmtEnvelopedRequest env s = _
  rw [execMgmtEnvelopedRequest, State.enveloped, hup, hperm, hok]
  rfl

theorem mgmtEnvelopedRequest_refuses {env : Envelope} (hup : s.thimbleUp = true)
    (h : s.mgmtPermits env.request = false ∨ s.envelopeOk env = false) :
    exec (.mgmtEnvelopedRequest env) s = .next (s.put (.mgmt mgmtRefused [])) := by
  have hnot : (!s.mgmtPermits env.request) = true ∨ (!s.envelopeOk env) = true := by simpa using h
  change execMgmtEnvelopedRequest env s = _
  rw [execMgmtEnvelopedRequest, State.enveloped, hup, if_pos hnot]
  rfl

/-! ## The actions in an envelope -/

theorem mgmtAction_of_cred {req : Bytes} (hop : byteAt req 0 = 0x96) : s.mgmtAction req =
    (s.setOperatorKey (slice (req.drop 64) 0 97)).1.put (.mgmt (s.setOperatorKey (slice (req.drop 64) 0 97)).2 []) := by
  rw [State.mgmtAction, byteAt_slice req (by omega), hop]
  rfl

theorem mgmtAction_of_switch {req : Bytes} (hop : byteAt req 0 = 0x91) (hrun : s.isRun = true) (hidle : s.sec.switchRun = false) :
    s.mgmtAction req = (s.switchStart false).put (.mgmt stOk []) := by
  rw [State.mgmtAction, byteAt_slice req (by omega), hop]
  exact if_pos ⟨hrun, by rw [hidle]; rfl⟩

theorem mgmtAction_of_dump {req : Bytes} (hop : byteAt req 0 = 0x95) : s.mgmtAction req = s.mgmtDump (slice req 0 64) := by
  rw [State.mgmtAction, byteAt_slice req (by omega), hop]
  rfl

/-- A dump read on the link leaves the dump and answers its bytes. -/
theorem mgmtDump_of_read {d : Bytes} {x : Dump} (hok : dumpFieldOk d = true) (hread : byteAt d 8 = 0) (hx : s.fw.dump = some x) :
    s.mgmtDump d = s.put (.mgmt stOk ((List.range (le d 32 4)).map (fun i => x.byte (le d 24 8 + i)))) := by
  rw [State.mgmtDump, hok, hread, hx]
  rfl

/-- MGMT_CRED on the link with a point of the curve, and with none. -/
theorem mgmtAction_sets_opKey {env : Envelope} (hop : byteAt env.request 0 = 0x96) :
    ((ecParse (slice (env.request.drop 64) 0 97)).isSome = true →
      (s.seqAccepted env).mgmtAction env.request = (s.setSec { s.sec with
        opKey := some (slice (env.request.drop 64) 0 97), seqFloor := 0 }).put (.mgmt stOk []))
    ∧ ((ecParse (slice (env.request.drop 64) 0 97)).isSome = false →
      (s.seqAccepted env).mgmtAction env.request = (s.seqAccepted env).put (.mgmt stSecField [])) := by
  rw [mgmtAction_of_cred hop]
  refine ⟨fun hpoint => ?_, fun hpoint => ?_⟩
  · rw [setOperatorKey_of_point hpoint]
    rfl
  · rw [setOperatorKey_of_no_point hpoint]

theorem envelope_sets_opKey {env : Envelope} (hup : s.thimbleUp = true) (hok : s.envelopeOk env = true)
    (hkeys : s.sec.lifecycle < 2) (hop : byteAt env.request 0 = 0x96) : ∃ t, exec (.mgmtEnvelopedRequest env) s = .next t
      ∧ ((ecParse (slice (env.request.drop 64) 0 97)).isSome = true →
        t.sec = { s.sec with opKey := some (slice (env.request.drop 64) 0 97), seqFloor := 0 } ∧ t.out = s.out ++ [.mgmt stOk []])
      ∧ ((ecParse (slice (env.request.drop 64) 0 97)).isSome = false →
        t.sec = { s.sec with seqFloor := env.seq.toNat } ∧ t.out = s.out ++ [.mgmt stSecField []])
      ∧ t = { s with sec := t.sec, out := t.out } := by
  obtain ⟨hsets, hrefuses⟩ := mgmtAction_sets_opKey (s := s) hop
  rw [mgmtEnvelopedRequest_accepts hup (mgmtPermits_of_keys _ hkeys) hok]
  refine ⟨_, rfl, ?_⟩
  cases hpoint : (ecParse (slice (env.request.drop 64) 0 97)).isSome with
  | true =>
    rw [hsets hpoint]
    exact ⟨fun _ => ⟨rfl, rfl⟩, fun h => Bool.noConfusion h, rfl⟩
  | false =>
    rw [hrefuses hpoint]
    exact ⟨fun h => Bool.noConfusion h, fun _ => ⟨rfl, rfl⟩, rfl⟩

theorem secretsGone_put (o : Output) (h : s.secretsGone) : (s.put o).secretsGone := h

theorem envelope_starts_switch {env : Envelope} (hup : s.thimbleUp = true) (hok : s.envelopeOk env = true)
    (hkeys : s.sec.lifecycle < 2) (hop : byteAt env.request 0 = 0x91) (hrun : s.isRun = true) (hidle : s.sec.switchRun = false) :
    ∃ t, exec (.mgmtEnvelopedRequest env) s = .next t ∧ t.secretsGone ∧ t.sec.pending = true
      ∧ t.sec.seqFloor = env.seq.toNat ∧ t.tierA = [] ∧ t.tierB = [] := by
  have hsec := switchStart_sec (s.seqAccepted env) false
  have hgone := switchStart_secretsGone (s.seqAccepted env) false
  obtain ⟨htierA, htierB, -⟩ := switchStart_memory (s.seqAccepted env) false
  rw [mgmtEnvelopedRequest_accepts hup (mgmtPermits_of_keys _ hkeys) hok,
    mgmtAction_of_switch (s := s.seqAccepted env) hop hrun hidle]
  generalize (s.seqAccepted env).switchStart false = u at *
  refine ⟨_, rfl, secretsGone_put _ hgone, ?_, ?_, htierA, htierB⟩
  · rw [State.put, hsec]
  · rw [State.put, hsec]; rfl

theorem envelope_reads_dump {env : Envelope} {x : Dump} (hup : s.thimbleUp = true) (hok : s.envelopeOk env = true)
    (hlife : s.sec.lifecycle ≠ 3) (hop : byteAt env.request 0 = 0x95) (hread : byteAt env.request 8 = 0)
    (hfield : dumpFieldOk (slice env.request 0 64) = true) (hx : s.fw.dump = some x) : exec (.mgmtEnvelopedRequest env) s =
      .next ((s.seqAccepted env).put
        (.mgmt stOk ((List.range (le env.request 32 4)).map (fun i => x.byte (le env.request 24 8 + i))))) := by
  have hread' : byteAt (slice env.request 0 64) 8 = 0 := (byteAt_slice _ (by omega)).trans hread
  rw [mgmtEnvelopedRequest_accepts hup (mgmtPermits_dumpRead hlife hop hread) hok, mgmtAction_of_dump hop,
    mgmtDump_of_read (s := s.seqAccepted env) hfield hread' hx, le_slice _ (by omega), le_slice _ (by omega)]

/-! ## O59 -/

/-- Settles O59: the thermal events by the branch each takes, an envelope by what it verifies under and what the lifecycle
state permits. -/
theorem thermalControlAndManagement : Obligations.ThermalControlAndManagement := by
  unfold Obligations.ThermalControlAndManagement
  refine ⟨⟨fun s j i => ?_, fun s => ?_, fun s => modResetNRelease_tripped⟩, fun s off haux => ?_, fun s env hup => ?_,
    fun s env => envelopeOk_of_replay, fun s env => envelopeOk_of_no_key⟩
  · exact ⟨thermalAlert_raises, thermalAlert_senses, throttleStepUp_raises, throttleStepUp_senses,
      fun hhot => ⟨thermalTrip_holdup hhot, thermalTrip_off hhot⟩, thermalTrip_senses⟩
  · exact ⟨throttleStepDown_lowers, throttleStepDown_ends⟩
  · exact ⟨fun v => mgmtHealthRead_serves haux, mgmtHealthRead_refuses haux⟩
  · refine ⟨envelope_sets_opKey hup, envelope_starts_switch hup, fun x => envelope_reads_dump hup, fun h => ?_⟩
    exact mgmtEnvelopedRequest_refuses hup (h.symm.imp mgmtPermits_of_not id)

end Sys2Proof.Machine
end

section
/-! Interpolation over F61 at members 1 to 255 is Lagrange's in the ring of residues modulo 2^61 − 1 (R38, R135). What it
needs of the modulus is that a^(p−2) inverts the differences of members; members differ by less than 255. -/

namespace Sys2Proof.Machine

/-! ## Lagrange interpolation in a ring of residues -/

section
variable {n : Nat} [NeZero n]

theorem ofNat_mul_eq (a b : Nat) : Fin.ofNat n (a * b) = Fin.ofNat n a * Fin.ofNat n b :=
  Fin.ext (Nat.mul_mod a b n)

theorem ofNat_add_eq (a b : Nat) : Fin.ofNat n (a + b) = Fin.ofNat n a + Fin.ofNat n b :=
  Fin.ext (Nat.add_mod a b n)

theorem ofNat_mod_self (a : Nat) : Fin.ofNat n (a % n) = Fin.ofNat n a :=
  Fin.ext (Nat.mod_mod a n)

/-- The sum of `f` over the members. -/
def sumOver (f : Nat → Fin n) : List Nat → Fin n
  | [] => 0
  | m :: js => f m + sumOver f js

theorem sumOver_linear {f g h : Nat → Fin n} {c d : Fin n} {js : List Nat} (hf : ∀ m ∈ js, f m = c * g m + d * h m) :
    sumOver f js = c * sumOver g js + d * sumOver h js := by
  induction js with
  | nil => simp only [sumOver]; grobner
  | cons m js ih =>
    have hm := hf m List.mem_cons_self
    have hjs := ih (fun k hk => hf k (List.mem_cons_of_mem _ hk))
    simp only [sumOver]
    grobner

theorem sumOver_mul_left {f g : Nat → Fin n} {c : Fin n} {js : List Nat} (hf : ∀ m ∈ js, f m = c * g m) :
    sumOver f js = c * sumOver g js := by
  have hlin : ∀ m ∈ js, f m = c * g m + 0 * g m := fun m hm => by
    rw [hf m hm]
    grobner
  rw [sumOver_linear hlin]
  grobner

/-- The product of the differences of `x` and the members. -/
def nodeProd (x : Fin n) : List Nat → Fin n
  | [] => 1
  | k :: ks => (x - Fin.ofNat n k) * nodeProd x ks

/-- The members other than `m`. -/
def others (js : List Nat) (m : Nat) : List Nat := js.filter (· != m)

theorem others_of_not_mem {js : List Nat} {m : Nat} (h : m ∉ js) : others js m = js :=
  List.filter_eq_self.2 (fun _ hk => bne_iff_ne.2 (fun heq => h (heq ▸ hk)))

theorem others_cons_self {js : List Nat} {m : Nat} (h : m ∉ js) : others (m :: js) m = js := by
  rw [others, List.filter_cons_of_neg (by simp)]
  exact others_of_not_mem h

theorem others_cons_of_ne {a m : Nat} (js : List Nat) (h : a ≠ m) : others (a :: js) m = a :: others js m :=
  List.filter_cons_of_pos (bne_iff_ne.2 h)

theorem others_cons_of_mem {a m : Nat} {js : List Nat} (ha : a ∉ js) (hm : m ∈ js) :
    others (a :: js) m = a :: others js m :=
  others_cons_of_ne js (fun heq => ha (heq ▸ hm))

theorem nodeProd_others {js : List Nat} {m : Nat} (hjs : js.Nodup) (hm : m ∈ js) (x : Fin n) :
    nodeProd x js = (x - Fin.ofNat n m) * nodeProd x (others js m) := by
  induction js with
  | nil => exact absurd hm List.not_mem_nil
  | cons a js ih =>
    obtain ⟨ha, hjs⟩ := List.nodup_cons.1 hjs
    by_cases heq : a = m
    · rw [← heq, others_cons_self ha, nodeProd]
    · have hmem : m ∈ js := (List.mem_cons.1 hm).resolve_left (fun h => heq h.symm)
      rw [others_cons_of_ne js heq, nodeProd, nodeProd, ih hjs hmem]
      grobner

/-- `w` holds the inverses of the denominators of the Lagrange coefficients. -/
def Weights (js : List Nat) (w : Nat → Fin n) : Prop :=
  ∀ m ∈ js, w m * nodeProd (Fin.ofNat n m) (others js m) = 1

/-- The weights of the members after the first. -/
theorem Weights.tail {a : Nat} {js : List Nat} {w : Nat → Fin n} (ha : a ∉ js) (hw : Weights (a :: js) w) :
    Weights js (fun m => w m * (Fin.ofNat n m - Fin.ofNat n a)) := by
  intro m hm
  have h := hw m (List.mem_cons_of_mem _ hm)
  rw [others_cons_of_mem ha hm, nodeProd] at h
  grobner

theorem Weights.head {a : Nat} {js : List Nat} {w : Nat → Fin n} (ha : a ∉ js) (hw : Weights (a :: js) w) :
    w a * nodeProd (Fin.ofNat n a) js = 1 := by
  have h := hw a List.mem_cons_self
  rwa [others_cons_self ha] at h

/-- The weights add up to 0 where the coefficients of the members after the first add up to 1 at the first. -/
theorem sum_weights {a : Nat} {js : List Nat} {w : Nat → Fin n} (ha : a ∉ js) (hjs : js.Nodup) (hw : Weights (a :: js) w)
    (hone : sumOver (fun m => w m * (Fin.ofNat n m - Fin.ofNat n a) * nodeProd (Fin.ofNat n a) (others js m)) js = 1) :
    w a + sumOver w js = 0 := by
  have hsum := sumOver_mul_left (js := js) (g := w) (c := - nodeProd (Fin.ofNat n a) js)
    (f := fun m => w m * (Fin.ofNat n m - Fin.ofNat n a) * nodeProd (Fin.ofNat n a) (others js m)) (fun m hm => by
      rw [nodeProd_others hjs hm]
      grobner)
  have hhead := hw.head ha
  grobner

/-- The Lagrange coefficients add up to 1. -/
theorem sum_coefficients {js : List Nat} {w : Nat → Fin n} (hjs : js.Nodup) (hne : js ≠ []) (hw : Weights js w)
    (x : Fin n) : sumOver (fun m => w m * nodeProd x (others js m)) js = 1 := by
  induction js generalizing w x with
  | nil => exact absurd rfl hne
  | cons a js ih =>
    obtain ⟨ha, hjs⟩ := List.nodup_cons.1 hjs
    have hhead := hw.head ha
    rw [sumOver, others_cons_self ha]
    by_cases hnil : js = []
    · rw [hnil, nodeProd] at hhead
      rw [hnil, nodeProd, sumOver]
      grobner
    · have hzero := sum_weights ha hjs hw (ih hjs hnil (hw.tail ha) (Fin.ofNat n a))
      have hone := ih hjs hnil (hw.tail ha) x
      have hsplit := sumOver_linear (js := js) (c := 1) (d := nodeProd x js) (h := w)
        (f := fun m => w m * nodeProd x (others (a :: js) m))
        (g := fun m => w m * (Fin.ofNat n m - Fin.ofNat n a) * nodeProd x (others js m)) (fun m hm => by
          rw [others_cons_of_mem ha hm, nodeProd, nodeProd_others hjs hm]
          grobner)
      grobner

/-- The value at `x` of the polynomial with the coefficients `cs`, the constant term first. -/
def polyEval (x : Fin n) : List (Fin n) → Fin n
  | [] => 0
  | c :: cs => c + x * polyEval x cs

theorem polyEval_cons (x c : Fin n) (cs : List (Fin n)) : polyEval x (c :: cs) = c + x * polyEval x cs := rfl

/-- A polynomial's difference from its value at `a` has the factor x − a. -/
theorem polyEval_quotient (a c : Fin n) (cs : List (Fin n)) : ∃ q : List (Fin n), q.length = cs.length
    ∧ ∀ x, polyEval x (c :: cs) = polyEval a (c :: cs) + (x - a) * polyEval x q := by
  induction cs generalizing c with
  | nil => exact ⟨[], rfl, fun x => by simp only [polyEval]; grobner⟩
  | cons d ds ih =>
    obtain ⟨q, hlen, hq⟩ := ih d
    refine ⟨polyEval a (d :: ds) :: q, congrArg (· + 1) hlen, fun x => ?_⟩
    have hx := hq x
    rw [polyEval_cons x c, polyEval_cons a c, polyEval_cons x (polyEval a (d :: ds))]
    grobner

/-- Interpolation gives back a polynomial with no more coefficients than there are members. -/
theorem sum_interpolates {js : List Nat} {w : Nat → Fin n} (hjs : js.Nodup) (hw : Weights js w) (cs : List (Fin n))
    (hlen : js.length = cs.length) (x : Fin n) :
    sumOver (fun m => w m * nodeProd x (others js m) * polyEval (Fin.ofNat n m) cs) js = polyEval x cs := by
  induction js generalizing w cs with
  | nil => rw [List.length_eq_zero_iff.1 hlen.symm, sumOver, polyEval]
  | cons a js ih =>
    obtain ⟨ha, hjs'⟩ := List.nodup_cons.1 hjs
    obtain ⟨c, cs, rfl⟩ := List.exists_cons_of_length_eq_add_one hlen.symm
    obtain ⟨q, hqlen, hq⟩ := polyEval_quotient (Fin.ofNat n a) c cs
    have hone := sum_coefficients hjs (List.cons_ne_nil a js) hw x
    have htail := ih hjs' (hw.tail ha) q ((Nat.succ.inj hlen).trans hqlen.symm)
    have hsplit := sumOver_linear (js := js) (c := polyEval (Fin.ofNat n a) (c :: cs)) (d := x - Fin.ofNat n a)
      (f := fun m => w m * nodeProd x (others (a :: js) m) * polyEval (Fin.ofNat n m) (c :: cs))
      (g := fun m => w m * nodeProd x (others (a :: js) m))
      (h := fun m => w m * (Fin.ofNat n m - Fin.ofNat n a) * nodeProd x (others js m) * polyEval (Fin.ofNat n m) q)
      (fun m hm => by
        rw [hq, others_cons_of_mem ha hm, nodeProd]
        grobner)
    have hx := hq x
    rw [sumOver] at hone ⊢
    grobner

end

/-! ## Inverses by square and multiply -/

theorem msbBits_succ (n e : Nat) : msbBits (n + 1) e = bit e n :: msbBits n e := by
  rw [msbBits, List.range_succ, List.map_append, List.reverse_append]
  rfl

/-- Square and multiply, from any accumulator. -/
theorem powBits_mod (m b e n r : Nat) : powBits m b (msbBits n e) r % m = r ^ 2 ^ n * b ^ (e % 2 ^ n) % m := by
  induction n generalizing r with
  | zero => rw [Nat.pow_zero, Nat.mod_one, Nat.pow_zero, Nat.pow_one, Nat.mul_one]; rfl
  | succ n ih =>
    have hsquare : r ^ 2 ^ (n + 1) = (r * r) ^ 2 ^ n := by rw [Nat.pow_succ, Nat.mul_comm, Nat.pow_mul, Nat.pow_two]
    rw [msbBits_succ, powBits, ih, Nat.mod_pow_succ, bit_eq, hsquare]
    rcases Nat.mod_two_eq_zero_or_one (e / 2 ^ n) with h | h
    · rw [h, if_neg (by decide), Nat.mul_zero, Nat.add_zero, Nat.mul_mod, ← Nat.pow_mod, ← Nat.mul_mod]
    · rw [h, if_pos (by decide), Nat.mul_one, Nat.pow_add, Nat.mod_mul_mod, Nat.mul_mod, ← Nat.pow_mod,
        ← Nat.mul_mod, Nat.mul_pow, Nat.mul_assoc, Nat.mul_comm (b ^ 2 ^ n)]

theorem powBits_one_mod (m b e n : Nat) : powBits m b (msbBits n e) 1 % m = b ^ (e % 2 ^ n) % m := by
  rw [powBits_mod, Nat.one_pow, Nat.one_mul]

theorem exponent_mod (k : Nat) : (f61P - k) % 2 ^ 61 = f61P - k :=
  Nat.mod_eq_of_lt (Nat.lt_of_le_of_lt (Nat.sub_le f61P k) (by decide))

theorem one_mod_f61P : 1 % f61P = 1 := Nat.mod_eq_of_lt (by decide)

/-- Fermat's congruence at `a`. -/
def Fermat (a : Nat) : Prop := a ^ (f61P - 1) % f61P = 1

theorem Fermat.mul {a b : Nat} (ha : Fermat a) (hb : Fermat b) : Fermat (a * b) := by
  unfold Fermat at *
  rw [Nat.mul_pow, Nat.mul_mod, ha, hb, Nat.mul_one, one_mod_f61P]

theorem fermat_mod {a : Nat} : Fermat (a % f61P) ↔ Fermat a := by
  rw [Fermat, ← Nat.pow_mod, Fermat]

theorem fermat_of_powBits {a : Nat} (h : powBits f61P a (msbBits 61 (f61P - 1)) 1 = 1) : Fermat a := by
  have hpow := powBits_one_mod f61P a (f61P - 1) 61
  rw [h, one_mod_f61P, exponent_mod] at hpow
  exact hpow.symm

theorem fermat_of_small {d : Nat} (hpos : 0 < d) (hlt : d < 255) : Fermat d := by
  have hall : ∀ d < 255, 0 < d → powBits f61P d (msbBits 61 (f61P - 1)) 1 = 1 := by decide +kernel
  exact fermat_of_powBits (hall d hlt hpos)

theorem fermat_one : Fermat 1 := fermat_of_small (by decide) (by decide)

theorem fermat_neg_one : Fermat (f61P - 1) := fermat_of_powBits (by decide +kernel)

/-- The difference of two members is a number below 255, or −1 times one. -/
theorem fermat_f61Sub {m k : Nat} (hm : 1 ≤ m ∧ m ≤ 255) (hk : 1 ≤ k ∧ k ≤ 255) (hne : k ≠ m) :
    Fermat (f61Sub m k) := by
  have hp : f61P = 2 ^ 61 - 1 := rfl
  rw [f61Sub, fermat_mod, Nat.mod_eq_of_lt (a := k) (by omega)]
  rcases Nat.lt_or_gt_of_ne hne with hlt | hgt
  · have heq : (m + f61P - k) % f61P = (m - k) % f61P := by
      rw [Nat.sub_add_comm (Nat.le_of_lt hlt), Nat.add_mod_right]
    rw [← fermat_mod, heq, fermat_mod]
    exact fermat_of_small (by omega) (by omega)
  · have heq : (m + f61P - k) % f61P = (f61P - 1) * (k - m) % f61P := by
      rw [hp]
      omega
    rw [← fermat_mod, heq, fermat_mod]
    exact fermat_neg_one.mul (fermat_of_small (by omega) (by omega))

theorem fermat_foldl {m : Nat} {ks : List Nat} (hks : ∀ k ∈ ks, Fermat (f61Sub m k)) {r : Nat} (hr : Fermat r) :
    Fermat (ks.foldl (fun a k => f61Mul a (f61Sub m k)) r) := by
  induction ks generalizing r with
  | nil => exact hr
  | cons k ks ih =>
    exact ih (fun j hj => hks j (List.mem_cons_of_mem _ hj)) (fermat_mod.2 (hr.mul (hks k List.mem_cons_self)))

theorem f61Inv_mul {a : Nat} (h : Fermat a) : f61Inv a * a % f61P = 1 := by
  have hexp : (f61P - 2).succ = f61P - 1 := by decide
  rw [f61Inv, Nat.mul_mod, powBits_one_mod, exponent_mod, ← Nat.pow_mod, ← Nat.mul_mod, ← Nat.pow_succ, hexp]
  exact h

/-! ## The model's interpolation -/

section
variable [NeZero f61P]

theorem ofNat_f61Mul (a b : Nat) : Fin.ofNat f61P (f61Mul a b) = Fin.ofNat f61P a * Fin.ofNat f61P b := by
  rw [f61Mul, ofNat_mod_self, ofNat_mul_eq]

theorem ofNat_f61Sub (a b : Nat) : Fin.ofNat f61P (f61Sub a b) = Fin.ofNat f61P a - Fin.ofNat f61P b := by
  have hle : b % f61P ≤ a + f61P := Nat.le_add_left_of_le (Nat.le_of_lt (Nat.mod_lt b (by decide)))
  have hadd := congrArg (Fin.ofNat f61P) (Nat.sub_add_cancel hle)
  rw [ofNat_add_eq, ofNat_add_eq, ofNat_mod_self, Fin.ofNat_self] at hadd
  rw [f61Sub, ofNat_mod_self]
  grobner

theorem ofNat_foldl_f61Mul (x : Nat) (ks : List Nat) (r : Nat) :
    Fin.ofNat f61P (ks.foldl (fun a k => f61Mul a (f61Sub x k)) r) = Fin.ofNat f61P r * nodeProd (Fin.ofNat f61P x) ks := by
  induction ks generalizing r with
  | nil => rw [List.foldl_nil, nodeProd]; grobner
  | cons k ks ih =>
    rw [List.foldl_cons, ih, ofNat_f61Mul, ofNat_f61Sub, nodeProd]
    grobner

/-- The inverse of the model's `den`. -/
def weight (js : List Nat) (m : Nat) : Fin f61P :=
  Fin.ofNat f61P (f61Inv ((others js m).foldl (fun a k => f61Mul a (f61Sub m k)) 1))

theorem ofNat_lagrange (js : List Nat) (m x : Nat) :
    Fin.ofNat f61P (lagrange js m x) = weight js m * nodeProd (Fin.ofNat f61P x) (others js m) := by
  have hnum := ofNat_foldl_f61Mul x (others js m) 1
  have hone : Fin.ofNat f61P 1 = 1 := rfl
  rw [lagrange, ofNat_f61Mul, weight]
  rw [others] at hnum ⊢
  grobner

theorem weights_weight {js : List Nat} (hrange : ∀ j ∈ js, 1 ≤ j ∧ j ≤ 255) : Weights js (weight js) := by
  intro m hm
  have hfermat := fermat_foldl (m := m) (ks := others js m) (fun k hk => by
    obtain ⟨hk, hne⟩ := List.mem_filter.1 hk
    exact fermat_f61Sub (hrange m hm) (hrange k hk) (bne_iff_ne.1 hne)) fermat_one
  have hden := ofNat_foldl_f61Mul m (others js m) 1
  have hinv : Fin.ofNat f61P (f61Inv _ * _) = 1 := Fin.ext ((f61Inv_mul hfermat).trans rfl)
  have hone : Fin.ofNat f61P 1 = 1 := rfl
  rw [ofNat_mul_eq, hden] at hinv
  rw [weight]
  grobner

theorem ofNat_foldl_add (f : Nat → Nat) (js : List Nat) (r : Nat) :
    Fin.ofNat f61P (js.foldl (fun a j => (a + f j) % f61P) r)
      = Fin.ofNat f61P r + sumOver (fun j => Fin.ofNat f61P (f j)) js := by
  induction js generalizing r with
  | nil => rw [List.foldl_nil, sumOver]; grobner
  | cons j js ih =>
    rw [List.foldl_cons, ih, ofNat_mod_self, ofNat_add_eq, sumOver]
    grobner

theorem ofNat_interpolate (sig : Nat → List Nat) (js : List Nat) (x c : Nat) :
    Fin.ofNat f61P (interpolate sig js x c) = sumOver (fun j =>
      weight js j * nodeProd (Fin.ofNat f61P x) (others js j) * Fin.ofNat f61P ((sig j).getD c 0)) js := by
  have hzero : Fin.ofNat f61P 0 = 0 := rfl
  rw [interpolate, ofNat_foldl_add, hzero]
  simp only [ofNat_f61Mul, ofNat_lagrange]
  grobner

/-- Interpolation over distinct members gives back every value of a polynomial that agrees with their share-sums. -/
theorem ofNat_interpolate_of_polyEval {js : List Nat} {sig : Nat → List Nat} {c : Nat} {cs : List (Fin f61P)}
    (hjs : js.Nodup) (hrange : ∀ j ∈ js, 1 ≤ j ∧ j ≤ 255) (hlen : js.length = cs.length)
    (heval : ∀ j, Fin.ofNat f61P ((sig j).getD c 0) = polyEval (Fin.ofNat f61P j) cs) (x : Nat) :
    Fin.ofNat f61P (interpolate sig js x c) = polyEval (Fin.ofNat f61P x) cs := by
  simp only [ofNat_interpolate, heval]
  exact sum_interpolates hjs (weights_weight hrange) cs hlen _

/-! ## The shares -/

theorem ofNat_sum_mapIdx (cs : List Nat) (m s : Nat) : Fin.ofNat f61P (cs.mapIdx (fun k a => a * m ^ (k + s))).sum
    = Fin.ofNat f61P (m ^ s) * polyEval (Fin.ofNat f61P m) (cs.map (Fin.ofNat f61P)) := by
  induction cs generalizing s with
  | nil =>
    have hzero : Fin.ofNat f61P 0 = 0 := rfl
    rw [List.mapIdx_nil, List.sum_nil, List.map_nil, polyEval, hzero]
    grobner
  | cons a cs ih =>
    have hshift : ∀ k, k + 1 + s = k + (s + 1) := fun k => by omega
    simp only [List.mapIdx_cons, List.sum_cons, List.map_cons, hshift, Nat.zero_add, ofNat_add_eq, ofNat_mul_eq, ih,
      Nat.pow_succ, polyEval]
    grobner

/-- The share of member `m` is the polynomial's value at `m`. -/
theorem ofNat_share (cs : List Nat) (m : Nat) : Fin.ofNat f61P ((cs.mapIdx (fun k a => a * m ^ k)).sum % f61P)
    = polyEval (Fin.ofNat f61P m) (cs.map (Fin.ofNat f61P)) := by
  have hone : Fin.ofNat f61P (m ^ 0) = 1 := rfl
  have hsum := ofNat_sum_mapIdx cs m 0
  simp only [Nat.add_zero] at hsum
  rw [ofNat_mod_self, hsum, hone]
  grobner

theorem polyEval_zero (cs : List Nat) :
    polyEval (Fin.ofNat f61P 0) (cs.map (Fin.ofNat f61P)) = Fin.ofNat f61P (cs.headD 0) := by
  have hzero : Fin.ofNat f61P 0 = 0 := rfl
  cases cs with
  | nil => rw [List.map_nil, polyEval]; exact hzero.symm
  | cons a cs =>
    rw [List.map_cons, polyEval, hzero, List.headD_cons]
    grobner

end

/-- The interpolation is reduced. -/
theorem interpolate_lt (sig : Nat → List Nat) (js : List Nat) (x c : Nat) : interpolate sig js x c < f61P := by
  rcases List.eq_nil_or_concat js with rfl | ⟨ks, j, rfl⟩
  · exact (by decide : 0 < f61P)
  · rw [interpolate, List.concat_eq_append, List.foldl_append]
    exact Nat.mod_lt _ (by decide)

/-! ## O28 -/

/-- Settles O28: the shares are values of a polynomial with as many coefficients as there are members, so the interpolation,
which is Lagrange's modulo 2^61 − 1, has its value at 0. -/
theorem interpolationRecoversTheSecret : Obligations.InterpolationRecoversTheSecret := by
  unfold Obligations.InterpolationRecoversTheSecret
  intro cs js hjs hrange hlen _
  have : NeZero f61P := ⟨by decide⟩
  have hfin := ofNat_interpolate_of_polyEval (sig := fun m => [(cs.mapIdx (fun k a => a * m ^ k)).sum % f61P]) (c := 0)
    hjs hrange (by rw [List.length_map, hlen]) (ofNat_share cs) 0
  rw [polyEval_zero] at hfin
  exact (Nat.mod_eq_of_lt (interpolate_lt ..)).symm.trans (congrArg Fin.val hfin)

end Sys2Proof.Machine
end
